-- ==== Sys2Proof/Word.lean ====
section
/-! DEFINITION. The word types of the RDS core (rules R6, R8): blocks, confidence levels, character and AF codes,
display characters. Every field is unsigned, and bit 0 is the least significant bit. -/

namespace Sys2Proof

/-- One block of a group: BLOCK_W = 16 bits (R6, R80). -/
abbrev Block := BitVec 16

/-- One block's confidence (error) level: CONF_W = 2 bits, 0 = no errors, 3 = uncorrectable (R87). -/
abbrev Level := BitVec 2

/-- One 8-bit character code or raw AF code (R6, R61). -/
abbrev Code := BitVec 8

/-- One display character: a Unicode scalar value (R6, decision D11). -/
abbrev DisplayChar := Char

end Sys2Proof
end

