-- ==== Sys2Proof/Syntax.lean ====
section
/-! DEFINITION. One RDS group as the core's input (R80), its decoded operand records (R82 to R87), and Instr: one
constructor for each of the 32 rows of the opcode table, that is for each pair of group type and version (R88).
The bits and blocks that a route ignores (R89, R90) stay operands, so that an instruction holds all 72 input bits and
that they are ignored is a fact about the meanings. -/

namespace Sys2Proof

/-- One group as presented at the ports: four blocks and their four confidence levels, 72 bits (R80). -/
structure Group where
  a : Block
  b : Block
  c : Block
  d : Block
  qa : Level
  qb : Level
  qc : Level
  qd : Level
deriving DecidableEq, Repr

/-- The operands every group has: PI_IN (R81), TP and PTY (R82), and the four confidence levels (R87). -/
structure Common where
  pi : Block
  tp : Bool
  pty : BitVec 5
  qa : Level
  qb : Level
  qc : Level
  qd : Level
deriving DecidableEq, Repr

/-- Block B's low five bits in a group 0 (R83, R89). Which of b3 and b2 is the DI bit is the OPEN parameter DI_BIT;
the other one, and b4, are ignored. -/
structure PsHeader where
  b4 : Bool
  b3 : Bool
  b2 : Bool
  addr : BitVec 2
deriving DecidableEq, Repr

/-- Block B's low five bits in a group 2 (R84): the A/B toggle and the segment address. -/
structure RtHeader where
  ab : Bool
  seg : BitVec 4
deriving DecidableEq, Repr

/-- The core's instructions: one constructor per row of spec/opcode_table.json (R88). `blkC` and `blkD` are whole
blocks, `x` is B[4:0] of a GX group. -/
inductive Instr where
  /-- Group 0 version A (R150): two AF codes from block C, two character codes from block D. -/
  | g0a (k : Common) (p : PsHeader) (af1 af2 : Code) (c1 c2 : Code)
  /-- Group 0 version B (R151): block C ignored, two character codes from block D. -/
  | g0b (k : Common) (p : PsHeader) (blkC : Block) (c1 c2 : Code)
  | g1a (k : Common) (x : BitVec 5) (blkC blkD : Block)
  | g1b (k : Common) (x : BitVec 5) (blkC blkD : Block)
  /-- Group 2 version A (R170): four character codes from blocks C and D. -/
  | g2a (k : Common) (r : RtHeader) (c1 c2 c3 c4 : Code)
  /-- Group 2 version B (R171): block C ignored, two character codes from block D. -/
  | g2b (k : Common) (r : RtHeader) (blkC : Block) (c1 c2 : Code)
  | g3a (k : Common) (x : BitVec 5) (blkC blkD : Block)
  | g3b (k : Common) (x : BitVec 5) (blkC blkD : Block)
  | g4a (k : Common) (x : BitVec 5) (blkC blkD : Block)
  | g4b (k : Common) (x : BitVec 5) (blkC blkD : Block)
  | g5a (k : Common) (x : BitVec 5) (blkC blkD : Block)
  | g5b (k : Common) (x : BitVec 5) (blkC blkD : Block)
  | g6a (k : Common) (x : BitVec 5) (blkC blkD : Block)
  | g6b (k : Common) (x : BitVec 5) (blkC blkD : Block)
  | g7a (k : Common) (x : BitVec 5) (blkC blkD : Block)
  | g7b (k : Common) (x : BitVec 5) (blkC blkD : Block)
  | g8a (k : Common) (x : BitVec 5) (blkC blkD : Block)
  | g8b (k : Common) (x : BitVec 5) (blkC blkD : Block)
  | g9a (k : Common) (x : BitVec 5) (blkC blkD : Block)
  | g9b (k : Common) (x : BitVec 5) (blkC blkD : Block)
  | g10a (k : Common) (x : BitVec 5) (blkC blkD : Block)
  | g10b (k : Common) (x : BitVec 5) (blkC blkD : Block)
  | g11a (k : Common) (x : BitVec 5) (blkC blkD : Block)
  | g11b (k : Common) (x : BitVec 5) (blkC blkD : Block)
  | g12a (k : Common) (x : BitVec 5) (blkC blkD : Block)
  | g12b (k : Common) (x : BitVec 5) (blkC blkD : Block)
  | g13a (k : Common) (x : BitVec 5) (blkC blkD : Block)
  | g13b (k : Common) (x : BitVec 5) (blkC blkD : Block)
  | g14a (k : Common) (x : BitVec 5) (blkC blkD : Block)
  | g14b (k : Common) (x : BitVec 5) (blkC blkD : Block)
  | g15a (k : Common) (x : BitVec 5) (blkC blkD : Block)
  | g15b (k : Common) (x : BitVec 5) (blkC blkD : Block)
deriving DecidableEq, Repr

end Sys2Proof
end

