-- ==== Sys2Proof/WellFormed.lean ====
section
/-! DEFINITION. Well-formedness. An Instr has no ill-formed term: each of its fields has exactly the width the spec
gives it (R80 to R87), no encoding is illegal or reserved (R90), and a misaligned or out-of-range access cannot be
encoded (R62). The one side condition of the spec's notation stands on the symbolic constructors of R92: a GX group's
type is neither 0 nor 2 (R89). -/

namespace Sys2Proof

/-- The symbolic constructors of R92, with their operands in the spec's order. Confidence levels are given where the
constructor is expanded. -/
inductive Symbolic where
  | g0a (pi : Block) (tp : Bool) (pty : BitVec 5) (di : Bool) (addr : BitVec 2) (af1 af2 c1 c2 : Code)
  | g0b (pi : Block) (tp : Bool) (pty : BitVec 5) (di : Bool) (addr : BitVec 2) (c1 c2 : Code)
  | g2a (pi : Block) (tp : Bool) (pty : BitVec 5) (ab : Bool) (seg : BitVec 4) (c1 c2 c3 c4 : Code)
  | g2b (pi : Block) (tp : Bool) (pty : BitVec 5) (ab : Bool) (seg : BitVec 4) (c1 c2 : Code)
  | gx (pi : Block) (g : BitVec 4) (v : Bool) (tp : Bool) (pty : BitVec 5)
deriving DecidableEq, Repr

/-- GX with group type 0 or 2 is no GX group (R89: "with gggg not 0000 or 0010"); every other symbolic constructor is
well-formed for all its operands. -/
def Symbolic.wellFormed : Symbolic → Bool
  | .gx _ g _ _ _ => g != 0#4 && g != 2#4
  | .g0a .. => true
  | .g0b .. => true
  | .g2a .. => true
  | .g2b .. => true

end Sys2Proof
end

