-- ==== Sys2Proof/Decode.lean ====
section
/-! DEFINITION. Decoding a group and encoding it back (R81 to R93). Every group decodes: no encoding is illegal or
reserved and none traps (R90), so decode is total and refuses nothing. -/

namespace Sys2Proof

/-! ### Fields of a block -/

/-- X[15:8]: the first character or AF code of a block (R61). -/
def hiByte (x : Block) : Code := x.extractLsb' 8 8

/-- X[7:0]: the second character or AF code of a block (R61). -/
def loByte (x : Block) : Code := x.extractLsb' 0 8

/-- A block from its two bytes, the first one high (R61). -/
def blockOf (hi lo : Code) : Block := hi ++ lo

/-- GT = B[15:12] (R82, decision D28). -/
def groupTypeBits (b : Block) : BitVec 4 := b.extractLsb' 12 4

/-- VER = B[11] (R82, decision D28). -/
def versionBit (b : Block) : Bool := b.getLsbD 11

/-- TP = B[10] (R82, decision D3). -/
def tpBit (b : Block) : Bool := b.getLsbD 10

/-- PTY = B[9:5] (R82, decision D3). -/
def ptyBits (b : Block) : BitVec 5 := b.extractLsb' 5 5

/-- B[4:0], the part of the payload header that the field decoders use (R82). -/
def lowBits (b : Block) : BitVec 5 := b.extractLsb' 0 5

/-- B[4:0] of a group 0: B[4], B[3], B[2] and ADDR = B[1:0] (R83, decisions D4 and D5). -/
def psHeader (x : BitVec 5) : PsHeader :=
  { b4 := x.getLsbD 4, b3 := x.getLsbD 3, b2 := x.getLsbD 2, addr := x.extractLsb' 0 2 }

/-- B[4:0] of a group 2: AB = B[4], SEG = B[3:0] (R84, decision D6). -/
def rtHeader (x : BitVec 5) : RtHeader :=
  { ab := x.getLsbD 4, seg := x.extractLsb' 0 4 }

/-- The operands every group has (R81, R82, R87). -/
def commonOf (g : Group) : Common :=
  { pi := g.a, tp := tpBit g.b, pty := ptyBits g.b, qa := g.qa, qb := g.qb, qc := g.qc, qd := g.qd }

/-! ### Decoding -/

/-- The dispatch map (R88): which instruction a group is, from its group type and version alone. -/
def decodeRow (gt : BitVec 4) (ver : Bool) (g : Group) : Instr :=
  match gt.toFin, ver with
  | 0, false => .g0a (commonOf g) (psHeader (lowBits g.b)) (hiByte g.c) (loByte g.c) (hiByte g.d) (loByte g.d)
  | 0, true => .g0b (commonOf g) (psHeader (lowBits g.b)) g.c (hiByte g.d) (loByte g.d)
  | 1, false => .g1a (commonOf g) (lowBits g.b) g.c g.d
  | 1, true => .g1b (commonOf g) (lowBits g.b) g.c g.d
  | 2, false => .g2a (commonOf g) (rtHeader (lowBits g.b)) (hiByte g.c) (loByte g.c) (hiByte g.d) (loByte g.d)
  | 2, true => .g2b (commonOf g) (rtHeader (lowBits g.b)) g.c (hiByte g.d) (loByte g.d)
  | 3, false => .g3a (commonOf g) (lowBits g.b) g.c g.d
  | 3, true => .g3b (commonOf g) (lowBits g.b) g.c g.d
  | 4, false => .g4a (commonOf g) (lowBits g.b) g.c g.d
  | 4, true => .g4b (commonOf g) (lowBits g.b) g.c g.d
  | 5, false => .g5a (commonOf g) (lowBits g.b) g.c g.d
  | 5, true => .g5b (commonOf g) (lowBits g.b) g.c g.d
  | 6, false => .g6a (commonOf g) (lowBits g.b) g.c g.d
  | 6, true => .g6b (commonOf g) (lowBits g.b) g.c g.d
  | 7, false => .g7a (commonOf g) (lowBits g.b) g.c g.d
  | 7, true => .g7b (commonOf g) (lowBits g.b) g.c g.d
  | 8, false => .g8a (commonOf g) (lowBits g.b) g.c g.d
  | 8, true => .g8b (commonOf g) (lowBits g.b) g.c g.d
  | 9, false => .g9a (commonOf g) (lowBits g.b) g.c g.d
  | 9, true => .g9b (commonOf g) (lowBits g.b) g.c g.d
  | 10, false => .g10a (commonOf g) (lowBits g.b) g.c g.d
  | 10, true => .g10b (commonOf g) (lowBits g.b) g.c g.d
  | 11, false => .g11a (commonOf g) (lowBits g.b) g.c g.d
  | 11, true => .g11b (commonOf g) (lowBits g.b) g.c g.d
  | 12, false => .g12a (commonOf g) (lowBits g.b) g.c g.d
  | 12, true => .g12b (commonOf g) (lowBits g.b) g.c g.d
  | 13, false => .g13a (commonOf g) (lowBits g.b) g.c g.d
  | 13, true => .g13b (commonOf g) (lowBits g.b) g.c g.d
  | 14, false => .g14a (commonOf g) (lowBits g.b) g.c g.d
  | 14, true => .g14b (commonOf g) (lowBits g.b) g.c g.d
  | 15, false => .g15a (commonOf g) (lowBits g.b) g.c g.d
  | 15, true => .g15b (commonOf g) (lowBits g.b) g.c g.d
  | ⟨n + 16, h⟩, _ => absurd h (by omega)

/-- The instruction that a group is (R88 to R90). -/
def decode (g : Group) : Instr := decodeRow (groupTypeBits g.b) (versionBit g.b) g

/-! ### Encoding -/

/-- Block B from its fields, most significant first: GT, VER, TP, PTY, B[4:0] (R82, R89). -/
def blockB (gt : BitVec 4) (ver tp : Bool) (pty : BitVec 5) (low : BitVec 5) : Block :=
  gt ++ BitVec.ofBool ver ++ BitVec.ofBool tp ++ pty ++ low

/-- B[4:0] of a group 0 (R83, R89). -/
def psLow (p : PsHeader) : BitVec 5 := BitVec.ofBool p.b4 ++ BitVec.ofBool p.b3 ++ BitVec.ofBool p.b2 ++ p.addr

/-- B[4:0] of a group 2 (R84, R89). -/
def rtLow (r : RtHeader) : BitVec 5 := BitVec.ofBool r.ab ++ r.seg

/-- A group from its type and version, its common operands, B[4:0], and blocks C and D. -/
def groupOf (gt : BitVec 4) (ver : Bool) (k : Common) (low : BitVec 5) (c d : Block) : Group :=
  { a := k.pi, b := blockB gt ver k.tp k.pty low, c := c, d := d, qa := k.qa, qb := k.qb, qc := k.qc, qd := k.qd }

/-- The group that an instruction stands for (R81 to R89). -/
def encode : Instr → Group
  | .g0a k p af1 af2 c1 c2 => groupOf 0#4 false k (psLow p) (blockOf af1 af2) (blockOf c1 c2)
  | .g0b k p blkC c1 c2 => groupOf 0#4 true k (psLow p) blkC (blockOf c1 c2)
  | .g1a k x blkC blkD => groupOf 1#4 false k x blkC blkD
  | .g1b k x blkC blkD => groupOf 1#4 true k x blkC blkD
  | .g2a k r c1 c2 c3 c4 => groupOf 2#4 false k (rtLow r) (blockOf c1 c2) (blockOf c3 c4)
  | .g2b k r blkC c1 c2 => groupOf 2#4 true k (rtLow r) blkC (blockOf c1 c2)
  | .g3a k x blkC blkD => groupOf 3#4 false k x blkC blkD
  | .g3b k x blkC blkD => groupOf 3#4 true k x blkC blkD
  | .g4a k x blkC blkD => groupOf 4#4 false k x blkC blkD
  | .g4b k x blkC blkD => groupOf 4#4 true k x blkC blkD
  | .g5a k x blkC blkD => groupOf 5#4 false k x blkC blkD
  | .g5b k x blkC blkD => groupOf 5#4 true k x blkC blkD
  | .g6a k x blkC blkD => groupOf 6#4 false k x blkC blkD
  | .g6b k x blkC blkD => groupOf 6#4 true k x blkC blkD
  | .g7a k x blkC blkD => groupOf 7#4 false k x blkC blkD
  | .g7b k x blkC blkD => groupOf 7#4 true k x blkC blkD
  | .g8a k x blkC blkD => groupOf 8#4 false k x blkC blkD
  | .g8b k x blkC blkD => groupOf 8#4 true k x blkC blkD
  | .g9a k x blkC blkD => groupOf 9#4 false k x blkC blkD
  | .g9b k x blkC blkD => groupOf 9#4 true k x blkC blkD
  | .g10a k x blkC blkD => groupOf 10#4 false k x blkC blkD
  | .g10b k x blkC blkD => groupOf 10#4 true k x blkC blkD
  | .g11a k x blkC blkD => groupOf 11#4 false k x blkC blkD
  | .g11b k x blkC blkD => groupOf 11#4 true k x blkC blkD
  | .g12a k x blkC blkD => groupOf 12#4 false k x blkC blkD
  | .g12b k x blkC blkD => groupOf 12#4 true k x blkC blkD
  | .g13a k x blkC blkD => groupOf 13#4 false k x blkC blkD
  | .g13b k x blkC blkD => groupOf 13#4 true k x blkC blkD
  | .g14a k x blkC blkD => groupOf 14#4 false k x blkC blkD
  | .g14b k x blkC blkD => groupOf 14#4 true k x blkC blkD
  | .g15a k x blkC blkD => groupOf 15#4 false k x blkC blkD
  | .g15b k x blkC blkD => groupOf 15#4 true k x blkC blkD

/-! ### The symbolic constructors of R92 -/

/-- One bit as the lowest bit of a block. -/
def bitBlock (x : Bool) : Block := (BitVec.ofBool x).setWidth 16

/-- The expansion of a symbolic constructor, written with the shifts and ors of R92 and not through blockB. G0A and G0B
put the DI value in both B[3] and B[2]; G0B and G2B put the PI in block C; GX leaves C and D zero. A confidence level
left out is 0. -/
def Symbolic.expand (y : Symbolic) (qa : Level := 0#2) (qb : Level := 0#2) (qc : Level := 0#2) (qd : Level := 0#2) :
    Group :=
  match y with
  | .g0a pi tp pty di addr af1 af2 c1 c2 =>
    { a := pi
      b := bitBlock tp <<< 10 ||| pty.setWidth 16 <<< 5 ||| bitBlock di <<< 3 ||| bitBlock di <<< 2 ||| addr.setWidth 16
      c := af1.setWidth 16 <<< 8 ||| af2.setWidth 16
      d := c1.setWidth 16 <<< 8 ||| c2.setWidth 16
      qa := qa, qb := qb, qc := qc, qd := qd }
  | .g0b pi tp pty di addr c1 c2 =>
    { a := pi
      b := (bitBlock tp <<< 10 ||| pty.setWidth 16 <<< 5 ||| bitBlock di <<< 3 ||| bitBlock di <<< 2
        ||| addr.setWidth 16) ||| 0x0800#16
      c := pi
      d := c1.setWidth 16 <<< 8 ||| c2.setWidth 16
      qa := qa, qb := qb, qc := qc, qd := qd }
  | .g2a pi tp pty ab seg c1 c2 c3 c4 =>
    { a := pi
      b := 0x2000#16 ||| bitBlock tp <<< 10 ||| pty.setWidth 16 <<< 5 ||| bitBlock ab <<< 4 ||| seg.setWidth 16
      c := c1.setWidth 16 <<< 8 ||| c2.setWidth 16
      d := c3.setWidth 16 <<< 8 ||| c4.setWidth 16
      qa := qa, qb := qb, qc := qc, qd := qd }
  | .g2b pi tp pty ab seg c1 c2 =>
    { a := pi
      b := 0x2800#16 ||| bitBlock tp <<< 10 ||| pty.setWidth 16 <<< 5 ||| bitBlock ab <<< 4 ||| seg.setWidth 16
      c := pi
      d := c1.setWidth 16 <<< 8 ||| c2.setWidth 16
      qa := qa, qb := qb, qc := qc, qd := qd }
  | .gx pi g v tp pty =>
    { a := pi
      b := g.setWidth 16 <<< 12 ||| bitBlock v <<< 11 ||| bitBlock tp <<< 10 ||| pty.setWidth 16 <<< 5
      c := 0#16
      d := 0#16
      qa := qa, qb := qb, qc := qc, qd := qd }

/-! ### The fixed name of the host: one instruction from the opcode table's numbering of its bits -/

/-- The group whose bits are `w` as the opcode table numbers them: the first word is block B, because the table's match
and mask apply to block B. Words A, C and D follow it, then the levels qa, qb, qc, qd (log entry 11). -/
def groupOfTableWord (nbits w : Nat) : Group :=
  let v : Nat := w % 2 ^ nbits
  { b := BitVec.ofNat 16 v
    a := BitVec.ofNat 16 (v / 2 ^ 16)
    c := BitVec.ofNat 16 (v / 2 ^ 32)
    d := BitVec.ofNat 16 (v / 2 ^ 48)
    qa := BitVec.ofNat 2 (v / 2 ^ 64)
    qb := BitVec.ofNat 2 (v / 2 ^ 66)
    qc := BitVec.ofNat 2 (v / 2 ^ 68)
    qd := BitVec.ofNat 2 (v / 2 ^ 70) }

/-- The instruction that the decoder reads from a table word. It is never none: no encoding is refused (R90). -/
def decodeTableWord (nbits w : Nat) : Option Instr := some (decode (groupOfTableWord nbits w))

end Sys2Proof
end

