-- ==== Sys2Proof/Config.lean ====
section
/-! DEFINITION. The OPEN parameters of the core (R6, R7, R31): values the spec does not fix. Each is an opaque constant,
so that whatever is proved holds for every value the spec allows; none of them is state. -/

namespace Sys2Proof

/-- REGION: the PTY label set, fixed when the core is built (R6, R31). -/
inductive Region where
  | unspecified
  | europe
  | usa
deriving DecidableEq, Repr, Inhabited

/-- The two values DI_BIT may have: the DI value is carried in B[3] or in B[2] (R6, decision D5). -/
inductive DiBit where
  | bit3
  | bit2
deriving DecidableEq, Repr, Inhabited

/-- INIT: one draw of the reset values of PI, PTY, TP and the four DI flags (R6, decision D12). -/
structure InitValues where
  pi : BitVec 16
  pty : BitVec 5
  tp : Bool
  diSpty : Bool
  diComp : Bool
  diAh : Bool
  diSt : Bool
deriving DecidableEq, Repr, Inhabited

namespace Config

/-- CHAR_ROM outside its two pinned entries (R6, R211): the other 254 entries are OPEN (log entry 4). -/
opaque charRomRest : Code → DisplayChar

/-- PTY_LABELS: 32 labels for each region; no label string is in the source (R6, R223, log entry 7). -/
opaque ptyLabels : Region → BitVec 5 → String

/-- PI_NAMES: a partial map from PI values to station names (R6, R222, log entry 7). -/
opaque piNames : BitVec 16 → Option String

/-- REGION (R6, R31, log entry 7). -/
opaque region : Region

/-- DI_BIT, OPEN between bit 3 and bit 2 (R6, decision D5, log entry 5). -/
opaque diBit : DiBit

/-- DI_INV[1], the polarity of the compressed flag, OPEN (R6, decision D8, log entry 6). -/
opaque diInv1 : Bool

/-- DI_INV[2], the polarity of the artificial-head flag, OPEN (R6, decision D8, log entry 6). -/
opaque diInv2 : Bool

/-- INIT as drawn at the n-th reset since power-on: any values, under no law (R270, decision D12, log entry 3). -/
opaque init : Nat → InitValues

end Config

end Sys2Proof
end

