-- ==== Sys2Proof/Machine/Params.lean ====
section
/-! DEFINITION. The parameters that rule R6 fixes, and CHAR_ROM with its two pinned entries (R211). -/

namespace Sys2Proof.Machine

/-- TH_A: block A is usable at level 2 or below (R111). -/
def thA : Level := 2#2

/-- TH_B: block B is usable at level 1 or below (R111). -/
def thB : Level := 1#2

/-- TH_C: block C is usable at level 2 or below (R111). -/
def thC : Level := 2#2

/-- TH_D: block D is usable at level 2 or below (R111). -/
def thD : Level := 2#2

/-- GATE_CD_ALWAYS: blocks C and D are gated only where the route reads them (R6, R112, decision D9, log entry 8). -/
def gateCdAlways : Bool := false

/-- BLANK, the fill character of PS and RT: U+0020 (R6, decision D10, log entry 10). -/
def blank : DisplayChar := Char.ofNat 0x20

/-- AF_BASE = 87.6 MHz in units of 100 kHz (R6). -/
def afBase100 : Nat := 876

/-- AF_STEP = 0.1 MHz in units of 100 kHz (R6). -/
def afStep100 : Nat := 1

/-- CHAR_ROM (R210, R211): a total function of the code, with 0x48 giving 'H', 0x69 giving 'i', and every other
entry OPEN. -/
def charRom (code : Code) : DisplayChar :=
  if code = 0x48#8 then 'H' else if code = 0x69#8 then 'i' else Config.charRomRest code

end Sys2Proof.Machine
end

