-- ==== Sys2Proof/Machine/Station.lean ====
section
/-! DEFINITION. The station-state register file: the tuple S of rule R20, and the values a RESET gives it (R270). -/

namespace Sys2Proof.Machine

/-- The state of one core, R20: S = (PI, PTY, TP, the four DI flags, PS[0..7], RT[0..63], RT_AB, AF[1..203],
SEEN[0..15]). AF[c] is bit c - 1 of `af` (no cell exists for code 0 or for 204 to 255, R28); SEEN[g] is bit g of
`seen`. -/
structure Station where
  /-- PI, 16 bits (R21). -/
  pi : BitVec 16
  /-- PTY, 5 bits (R22). -/
  pty : BitVec 5
  /-- TP, one bit (R23). -/
  tp : Bool
  /-- DI_SPTY, static PTY, sub-address 0 (R24). -/
  diSpty : Bool
  /-- DI_COMP, compressed, sub-address 1 (R24). -/
  diComp : Bool
  /-- DI_AH, artificial head, sub-address 2 (R24). -/
  diAh : Bool
  /-- DI_ST, stereo, sub-address 3 (R24). -/
  diSt : Bool
  /-- PS, the program-service name, 8 cells (R25). -/
  ps : Vector DisplayChar 8
  /-- RT, the radio text, 64 cells (R26). -/
  rt : Vector DisplayChar 64
  /-- RT_AB, the stored A/B toggle (R27); no read port shows it (R33). -/
  rtAb : Bool
  /-- AF, one bit per valid AF code 1 to 203 (R28). -/
  af : BitVec 203
  /-- SEEN, one bit per group type 0 to 15 (R29). -/
  seen : BitVec 16
deriving DecidableEq, Repr

/-- The station state that a RESET leaves, for one draw v of INIT (R270): PS and RT blank, AF and SEEN empty,
RT_AB = 0 (decision D13, log entry 9). -/
def freshStation (v : InitValues) : Station :=
  { pi := v.pi
    pty := v.pty
    tp := v.tp
    diSpty := v.diSpty
    diComp := v.diComp
    diAh := v.diAh
    diSt := v.diSt
    ps := Vector.replicate 8 blank
    rt := Vector.replicate 64 blank
    rtAb := false
    af := 0#203
    seen := 0#16 }

end Sys2Proof.Machine
end

