-- ==== Sys2Proof/Machine/State.lean ====
section
/-! DEFINITION. The machine's state: the station state of R20, and the model's own fields for the host's side of the
interface (R80, R262). Its reset value, and the reasons a step could stop. -/

namespace Sys2Proof.Machine

/-- A move of the host that changes state (R32, R262): presenting one group (port GRP, R80) or the reset step (port RST,
R270). Reading a port is no move: it changes nothing (R230). -/
inductive HostMove where
  | grp (g : Group)
  | rst
deriving DecidableEq, Repr

/-- The machine. `station` is the whole architectural state (R20: "Nothing else in the core holds a value from one
transaction to the next"). The other three fields are the MODEL's (log entries 1, 2, 3). -/
structure State where
  /-- The state S of R20. -/
  station : Station
  /-- The port ACCEPT (R80): the result of the last DECODE transaction, none before the first one. No meaning reads
  it. -/
  accept : Option Bool
  /-- The host's moves still to come, the next one first: the "program" of R34. -/
  pending : List HostMove
  /-- How many times INIT has been drawn: the next RESET takes draw number initDraws (R270). -/
  initDraws : Nat
deriving DecidableEq, Repr

/-- The reasons for which the machine stops. There is none: the core raises no exception, trap or fault (R250, R254), so
no step raises one. -/
inductive Fault where
deriving DecidableEq, Repr

/-- The reasons for which the model gives no meaning. -/
inductive Refusal where
  /-- An instruction with no meaning yet, by its mnemonic. Only exec's refused arms would raise it, and no arm is
  refused. Safe. -/
  | notModelled (mnemonic : String)
deriving DecidableEq, Repr

/-- The machine right after its first RESET (R270, R273), with draw 0 of INIT and no move of the host yet. -/
def State.reset : State :=
  { station := freshStation (Config.init 0), accept := none, pending := [], initDraws := 1 }

end Sys2Proof.Machine
end

