-- ==== Sys2Proof/Machine/Flags.lean ====
section
/-! DEFINITION. The flags: TP and the fields common to every group (R131), and the decoder-identification flags
(R152). -/

namespace Sys2Proof.Machine

/-- Steps 2 and 3 of R130: every accepted group overwrites PI, TP and PTY whole (R131). -/
def writeCommon (k : Common) (st : Station) : Station := { st with pi := k.pi, tp := k.tp, pty := k.pty }

/-- The DI value bit: B[DI_BIT] (R83). -/
def diValue (bit : DiBit) (p : PsHeader) : Bool :=
  match bit with
  | .bit3 => p.b3
  | .bit2 => p.b2

/-- DI_INV = (1, DI_INV[1], DI_INV[2], 0), indexed by the sub-address; entries 0 and 3 are fixed by the source
(R152). -/
def diInv (inv1 inv2 : Bool) (addr : BitVec 2) : Bool :=
  match addr.toFin with
  | 0 => true
  | 1 => inv1
  | 2 => inv2
  | 3 => false

/-- The new value of the selected DI flag: v = di ^ DI_INV[a] (R152). -/
def diFlag (bit : DiBit) (inv1 inv2 : Bool) (p : PsHeader) : Bool := (diValue bit p).xor (diInv inv1 inv2 p.addr)

/-- The write of DI_UPDATE (R152): the flag that the sub-address selects, and no other. -/
def writeDi (addr : BitVec 2) (v : Bool) (st : Station) : Station :=
  match addr.toFin with
  | 0 => { st with diSpty := v }
  | 1 => { st with diComp := v }
  | 2 => { st with diAh := v }
  | 3 => { st with diSt := v }

/-- DI_UPDATE (R152), with the OPEN parameters DI_BIT, DI_INV[1] and DI_INV[2]. -/
def diUpdate (p : PsHeader) (st : Station) : Station :=
  writeDi p.addr (diFlag Config.diBit Config.diInv1 Config.diInv2 p) st

end Sys2Proof.Machine
end

