-- ==== Sys2Proof/Machine/Gate.lean ====
section
/-! DEFINITION. The confidence gate (R110 to R117): a pure function of the four levels, the group type and the
version. -/

namespace Sys2Proof.Machine

/-- The comparator of R110: a level is usable when it is at most the threshold, unsigned. -/
def usable (q th : Level) : Bool := q.ule th

/-- The group types whose routes read payload blocks: 0 and 2 (R112). -/
def readsPayload (gt : BitVec 4) : Bool := gt == 0#4 || gt == 2#4

/-- needC of R112: block C is needed by G0A and G2A, or by every group when GATE_CD_ALWAYS. -/
def needC (always : Bool) (gt : BitVec 4) (ver : Bool) : Bool := always || (readsPayload gt && !ver)

/-- needD of R112: block D is needed by groups 0 and 2, or by every group when GATE_CD_ALWAYS. -/
def needD (always : Bool) (gt : BitVec 4) : Bool := always || readsPayload gt

/-- PASS of R113. -/
def gatePass (always : Bool) (gt : BitVec 4) (ver : Bool) (k : Common) : Bool :=
  usable k.qa thA && usable k.qb thB
    && (!needC always gt ver || usable k.qc thC)
    && (!needD always gt || usable k.qd thD)

end Sys2Proof.Machine
end

