-- ==== Sys2Proof/Machine/Ops.lean ====
section
/-! DEFINITION. The operations that the meanings share: writes to the buffers and sets of R60, the lookup in the
character ROM, the DECODE transaction around a route (R130), its rejection (R114), and the reset step (R270). The core
has no exception to take and none to return from (R254); rejection is its one other outcome (R250). -/

namespace Sys2Proof.Machine

/-! ### Buffers and sets -/

/-- Write characters into consecutive cells from `start` on, in order: the k-th character goes to cell start + k
(R153, R173). A cell outside the buffer would be left out; no route reaches one (R62). -/
def writeCells {n : Nat} (buf : Vector DisplayChar n) (start : Nat) : List DisplayChar → Vector DisplayChar n
  | [] => buf
  | c :: cs => writeCells (buf.setIfInBounds start c) (start + 1) cs

/-- PS_WRITE (R153): two codes of block D, looked up, to PS[2*ADDR] and PS[2*ADDR + 1]. -/
def psWrite (addr : BitVec 2) (c1 c2 : Code) (st : Station) : Station :=
  { st with ps := writeCells st.ps (2 * addr.toNat) [charRom c1, charRom c2] }

/-- The cells of one segment (R173): width × SEG on, one for each code, looked up. -/
def rtWrite (width : Nat) (seg : BitVec 4) (codes : List Code) (st : Station) : Station :=
  { st with rt := writeCells st.rt (width * seg.toNat) (codes.map charRom) }

/-- AB_CHECK (R172): a toggle that differs from the stored one sets every RT cell to BLANK and is stored; one that
equals it changes nothing. -/
def abCheck (ab : Bool) (st : Station) : Station :=
  if ab = st.rtAb then st else { st with rt := Vector.replicate 64 blank, rtAb := ab }

/-- A code is valid when 0 < c and c < 204 (R190). -/
def afValid (c : Code) : Bool := (0#8).ult c && c.ult 204#8

/-- AF[c], for a code 1 to 203; there is no cell for any other (R28). -/
def afHas (st : Station) (c : Nat) : Bool := decide (1 ≤ c) && st.af.getLsbD (c - 1)

/-- AF_FEED (R190): a valid code's bit is set; any other code is dropped. -/
def afFeed (c : Code) (st : Station) : Station :=
  if afValid c then { st with af := st.af ||| BitVec.twoPow 203 (c.toNat - 1) } else st

/-- SEEN[g] (R29). -/
def seenHas (st : Station) (g : BitVec 4) : Bool := st.seen.getLsbD g.toNat

/-- Step 5 of R130: SEEN[GT] <- 1 (R134). -/
def markSeen (gt : BitVec 4) (st : Station) : Station := { st with seen := st.seen ||| BitVec.twoPow 16 gt.toNat }

/-! ### The DECODE transaction -/

/-- Rejection (R114): ACCEPT = 0 and no state element is written. -/
def reject (s : State) : Host.Outcome State Fault Refusal := .next { s with accept := some false }

/-- The station state after an accepted group (R130, steps 2 to 5): the common fields, the route, SEEN. -/
def acceptedStation (gt : BitVec 4) (k : Common) (route : Station → Station) (st : Station) : Station :=
  markSeen gt (route (writeCommon k st))

/-- DECODE (R130): the gate, then either rejection (R114) or the whole effect of the route with ACCEPT = 1 (R115). -/
def transact (gt : BitVec 4) (ver : Bool) (k : Common) (route : Station → Station) (s : State) :
    Host.Outcome State Fault Refusal :=
  if gatePass gateCdAlways gt ver k then
    .next { s with station := acceptedStation gt k route s.station, accept := some true }
  else
    reject s

/-! ### The host's side -/

/-- RESET (R270): every element of R20 takes its reset value, PI, PTY, TP and the DI flags from a fresh draw of INIT. It
is no DECODE, so ACCEPT keeps the result of the last one (R80, log entry 2). -/
def resetStep (s : State) : State :=
  { s with station := freshStation (Config.init s.initDraws), initDraws := s.initDraws + 1 }

/-- Take the host's next move, if there is one (R34, R68: one at a time, in order). -/
def takeMove (s : State) : Option (HostMove × State) :=
  match s.pending with
  | [] => none
  | m :: rest => some (m, { s with pending := rest })

/-- Let the host present one more group before all moves still to come. -/
def presentNext (g : Group) (s : State) : State := { s with pending := .grp g :: s.pending }

end Sys2Proof.Machine
end

