-- ==== Sys2Proof/Machine/GroupOther.lean ====
section
/-! DEFINITION. Groups of every type other than 0 and 2 (R133): the route decodes no field. One meaning for each of the
28 rows, over one shared operation. -/

namespace Sys2Proof.Machine

/-- GX (R133): DECODE with the arm that does nothing, so PI, TP, PTY and SEEN[GT] are written and nothing else. -/
def noRoute (gt : BitVec 4) (ver : Bool) (k : Common) (s : State) : Host.Outcome State Fault Refusal :=
  transact gt ver k id s

/-- G1A: group type 1, version A (R133). B[4:0] and blocks C and D are ignored (R90). -/
def execG1A (k : Common) (_x : BitVec 5) (_blkC _blkD : Block) (s : State) : Host.Outcome State Fault Refusal :=
  noRoute 1#4 false k s

/-- G1B: group type 1, version B (R133). B[4:0] and blocks C and D are ignored (R90). -/
def execG1B (k : Common) (_x : BitVec 5) (_blkC _blkD : Block) (s : State) : Host.Outcome State Fault Refusal :=
  noRoute 1#4 true k s

/-- G3A: group type 3, version A (R133). B[4:0] and blocks C and D are ignored (R90). -/
def execG3A (k : Common) (_x : BitVec 5) (_blkC _blkD : Block) (s : State) : Host.Outcome State Fault Refusal :=
  noRoute 3#4 false k s

/-- G3B: group type 3, version B (R133). B[4:0] and blocks C and D are ignored (R90). -/
def execG3B (k : Common) (_x : BitVec 5) (_blkC _blkD : Block) (s : State) : Host.Outcome State Fault Refusal :=
  noRoute 3#4 true k s

/-- G4A: group type 4, version A (R133). B[4:0] and blocks C and D are ignored (R90). -/
def execG4A (k : Common) (_x : BitVec 5) (_blkC _blkD : Block) (s : State) : Host.Outcome State Fault Refusal :=
  noRoute 4#4 false k s

/-- G4B: group type 4, version B (R133). B[4:0] and blocks C and D are ignored (R90). -/
def execG4B (k : Common) (_x : BitVec 5) (_blkC _blkD : Block) (s : State) : Host.Outcome State Fault Refusal :=
  noRoute 4#4 true k s

/-- G5A: group type 5, version A (R133). B[4:0] and blocks C and D are ignored (R90). -/
def execG5A (k : Common) (_x : BitVec 5) (_blkC _blkD : Block) (s : State) : Host.Outcome State Fault Refusal :=
  noRoute 5#4 false k s

/-- G5B: group type 5, version B (R133). B[4:0] and blocks C and D are ignored (R90). -/
def execG5B (k : Common) (_x : BitVec 5) (_blkC _blkD : Block) (s : State) : Host.Outcome State Fault Refusal :=
  noRoute 5#4 true k s

/-- G6A: group type 6, version A (R133). B[4:0] and blocks C and D are ignored (R90). -/
def execG6A (k : Common) (_x : BitVec 5) (_blkC _blkD : Block) (s : State) : Host.Outcome State Fault Refusal :=
  noRoute 6#4 false k s

/-- G6B: group type 6, version B (R133). B[4:0] and blocks C and D are ignored (R90). -/
def execG6B (k : Common) (_x : BitVec 5) (_blkC _blkD : Block) (s : State) : Host.Outcome State Fault Refusal :=
  noRoute 6#4 true k s

/-- G7A: group type 7, version A (R133). B[4:0] and blocks C and D are ignored (R90). -/
def execG7A (k : Common) (_x : BitVec 5) (_blkC _blkD : Block) (s : State) : Host.Outcome State Fault Refusal :=
  noRoute 7#4 false k s

/-- G7B: group type 7, version B (R133). B[4:0] and blocks C and D are ignored (R90). -/
def execG7B (k : Common) (_x : BitVec 5) (_blkC _blkD : Block) (s : State) : Host.Outcome State Fault Refusal :=
  noRoute 7#4 true k s

/-- G8A: group type 8, version A (R133). B[4:0] and blocks C and D are ignored (R90). -/
def execG8A (k : Common) (_x : BitVec 5) (_blkC _blkD : Block) (s : State) : Host.Outcome State Fault Refusal :=
  noRoute 8#4 false k s

/-- G8B: group type 8, version B (R133). B[4:0] and blocks C and D are ignored (R90). -/
def execG8B (k : Common) (_x : BitVec 5) (_blkC _blkD : Block) (s : State) : Host.Outcome State Fault Refusal :=
  noRoute 8#4 true k s

/-- G9A: group type 9, version A (R133). B[4:0] and blocks C and D are ignored (R90). -/
def execG9A (k : Common) (_x : BitVec 5) (_blkC _blkD : Block) (s : State) : Host.Outcome State Fault Refusal :=
  noRoute 9#4 false k s

/-- G9B: group type 9, version B (R133). B[4:0] and blocks C and D are ignored (R90). -/
def execG9B (k : Common) (_x : BitVec 5) (_blkC _blkD : Block) (s : State) : Host.Outcome State Fault Refusal :=
  noRoute 9#4 true k s

/-- G10A: group type 10, version A (R133). B[4:0] and blocks C and D are ignored (R90). -/
def execG10A (k : Common) (_x : BitVec 5) (_blkC _blkD : Block) (s : State) : Host.Outcome State Fault Refusal :=
  noRoute 10#4 false k s

/-- G10B: group type 10, version B (R133). B[4:0] and blocks C and D are ignored (R90). -/
def execG10B (k : Common) (_x : BitVec 5) (_blkC _blkD : Block) (s : State) : Host.Outcome State Fault Refusal :=
  noRoute 10#4 true k s

/-- G11A: group type 11, version A (R133). B[4:0] and blocks C and D are ignored (R90). -/
def execG11A (k : Common) (_x : BitVec 5) (_blkC _blkD : Block) (s : State) : Host.Outcome State Fault Refusal :=
  noRoute 11#4 false k s

/-- G11B: group type 11, version B (R133). B[4:0] and blocks C and D are ignored (R90). -/
def execG11B (k : Common) (_x : BitVec 5) (_blkC _blkD : Block) (s : State) : Host.Outcome State Fault Refusal :=
  noRoute 11#4 true k s

/-- G12A: group type 12, version A (R133). B[4:0] and blocks C and D are ignored (R90). -/
def execG12A (k : Common) (_x : BitVec 5) (_blkC _blkD : Block) (s : State) : Host.Outcome State Fault Refusal :=
  noRoute 12#4 false k s

/-- G12B: group type 12, version B (R133). B[4:0] and blocks C and D are ignored (R90). -/
def execG12B (k : Common) (_x : BitVec 5) (_blkC _blkD : Block) (s : State) : Host.Outcome State Fault Refusal :=
  noRoute 12#4 true k s

/-- G13A: group type 13, version A (R133). B[4:0] and blocks C and D are ignored (R90). -/
def execG13A (k : Common) (_x : BitVec 5) (_blkC _blkD : Block) (s : State) : Host.Outcome State Fault Refusal :=
  noRoute 13#4 false k s

/-- G13B: group type 13, version B (R133). B[4:0] and blocks C and D are ignored (R90). -/
def execG13B (k : Common) (_x : BitVec 5) (_blkC _blkD : Block) (s : State) : Host.Outcome State Fault Refusal :=
  noRoute 13#4 true k s

/-- G14A: group type 14, version A (R133). B[4:0] and blocks C and D are ignored (R90). -/
def execG14A (k : Common) (_x : BitVec 5) (_blkC _blkD : Block) (s : State) : Host.Outcome State Fault Refusal :=
  noRoute 14#4 false k s

/-- G14B: group type 14, version B (R133). B[4:0] and blocks C and D are ignored (R90). -/
def execG14B (k : Common) (_x : BitVec 5) (_blkC _blkD : Block) (s : State) : Host.Outcome State Fault Refusal :=
  noRoute 14#4 true k s

/-- G15A: group type 15, version A (R133). B[4:0] and blocks C and D are ignored (R90). -/
def execG15A (k : Common) (_x : BitVec 5) (_blkC _blkD : Block) (s : State) : Host.Outcome State Fault Refusal :=
  noRoute 15#4 false k s

/-- G15B: group type 15, version B (R133). B[4:0] and blocks C and D are ignored (R90). -/
def execG15B (k : Common) (_x : BitVec 5) (_blkC _blkD : Block) (s : State) : Host.Outcome State Fault Refusal :=
  noRoute 15#4 true k s

end Sys2Proof.Machine
end

