-- ==== Sys2Proof/Machine/GroupTwo.lean ====
section
/-! DEFINITION. Group 2 (R170 to R178): the radio-text routes of both versions, over one buffer and one stored
toggle (R174). -/

namespace Sys2Proof.Machine

/-- The characters of one version A segment (R170, R173). -/
def rtWidthA : Nat := 4

/-- The characters of one version B segment (R171, R173). -/
def rtWidthB : Nat := 2

/-- RT_ROUTE_A (R170): the A/B check, then four characters at 4 × SEG. No code has a special meaning (R177). -/
def rtRouteA (r : RtHeader) (c1 c2 c3 c4 : Code) (st : Station) : Station :=
  rtWrite rtWidthA r.seg [c1, c2, c3, c4] (abCheck r.ab st)

/-- RT_ROUTE_B (R171): the A/B check, then two characters at 2 × SEG. -/
def rtRouteB (r : RtHeader) (c1 c2 : Code) (st : Station) : Station :=
  rtWrite rtWidthB r.seg [c1, c2] (abCheck r.ab st)

/-- G2A: group 2, version A (R170). -/
def execG2A (k : Common) (r : RtHeader) (c1 c2 c3 c4 : Code) (s : State) : Host.Outcome State Fault Refusal :=
  transact 2#4 false k (rtRouteA r c1 c2 c3 c4) s

/-- G2B: group 2, version B (R171). Block C is ignored. -/
def execG2B (k : Common) (r : RtHeader) (_blkC : Block) (c1 c2 : Code) (s : State) :
    Host.Outcome State Fault Refusal :=
  transact 2#4 true k (rtRouteB r c1 c2) s

end Sys2Proof.Machine
end

