-- ==== Sys2Proof/Machine/GroupZero.lean ====
section
/-! DEFINITION. Group 0 (R150 to R157, R190): the program-service route, and the AF route of version A. -/

namespace Sys2Proof.Machine

/-- PS_ROUTE (R154): DI_UPDATE, then PS_WRITE. -/
def psRoute (p : PsHeader) (c1 c2 : Code) (st : Station) : Station := psWrite p.addr c1 c2 (diUpdate p st)

/-- AF_ROUTE (R150): the two AF codes of block C, C[15:8] and then C[7:0] (R196). -/
def afRoute (af1 af2 : Code) (st : Station) : Station := afFeed af2 (afFeed af1 st)

/-- G0A: group 0, version A (R150). -/
def execG0A (k : Common) (p : PsHeader) (af1 af2 : Code) (c1 c2 : Code) (s : State) :
    Host.Outcome State Fault Refusal :=
  transact 0#4 false k (fun st => afRoute af1 af2 (psRoute p c1 c2 st)) s

/-- G0B: group 0, version B (R151). Block C is ignored: there is no AF feed. -/
def execG0B (k : Common) (p : PsHeader) (_blkC : Block) (c1 c2 : Code) (s : State) :
    Host.Outcome State Fault Refusal :=
  transact 0#4 true k (psRoute p c1 c2) s

end Sys2Proof.Machine
end

