-- ==== Sys2Proof/Machine/Dispatch.lean ====
section
/-! DEFINITION. The dispatcher (R132): which meaning each instruction has. -/

namespace Sys2Proof.Machine

-- One arm per row of spec/opcode_table.json, in the table's order.
def exec (i : Instr) (s : State) : Host.Outcome State Fault Refusal :=
  match i with
  | .g0a k p af1 af2 c1 c2 => Sys2Proof.Machine.execG0A k p af1 af2 c1 c2 s
  | .g0b k p blkC c1 c2 => Sys2Proof.Machine.execG0B k p blkC c1 c2 s
  | .g1a k x blkC blkD => Sys2Proof.Machine.execG1A k x blkC blkD s
  | .g1b k x blkC blkD => Sys2Proof.Machine.execG1B k x blkC blkD s
  | .g2a k r c1 c2 c3 c4 => Sys2Proof.Machine.execG2A k r c1 c2 c3 c4 s
  | .g2b k r blkC c1 c2 => Sys2Proof.Machine.execG2B k r blkC c1 c2 s
  | .g3a k x blkC blkD => Sys2Proof.Machine.execG3A k x blkC blkD s
  | .g3b k x blkC blkD => Sys2Proof.Machine.execG3B k x blkC blkD s
  | .g4a k x blkC blkD => Sys2Proof.Machine.execG4A k x blkC blkD s
  | .g4b k x blkC blkD => Sys2Proof.Machine.execG4B k x blkC blkD s
  | .g5a k x blkC blkD => Sys2Proof.Machine.execG5A k x blkC blkD s
  | .g5b k x blkC blkD => Sys2Proof.Machine.execG5B k x blkC blkD s
  | .g6a k x blkC blkD => Sys2Proof.Machine.execG6A k x blkC blkD s
  | .g6b k x blkC blkD => Sys2Proof.Machine.execG6B k x blkC blkD s
  | .g7a k x blkC blkD => Sys2Proof.Machine.execG7A k x blkC blkD s
  | .g7b k x blkC blkD => Sys2Proof.Machine.execG7B k x blkC blkD s
  | .g8a k x blkC blkD => Sys2Proof.Machine.execG8A k x blkC blkD s
  | .g8b k x blkC blkD => Sys2Proof.Machine.execG8B k x blkC blkD s
  | .g9a k x blkC blkD => Sys2Proof.Machine.execG9A k x blkC blkD s
  | .g9b k x blkC blkD => Sys2Proof.Machine.execG9B k x blkC blkD s
  | .g10a k x blkC blkD => Sys2Proof.Machine.execG10A k x blkC blkD s
  | .g10b k x blkC blkD => Sys2Proof.Machine.execG10B k x blkC blkD s
  | .g11a k x blkC blkD => Sys2Proof.Machine.execG11A k x blkC blkD s
  | .g11b k x blkC blkD => Sys2Proof.Machine.execG11B k x blkC blkD s
  | .g12a k x blkC blkD => Sys2Proof.Machine.execG12A k x blkC blkD s
  | .g12b k x blkC blkD => Sys2Proof.Machine.execG12B k x blkC blkD s
  | .g13a k x blkC blkD => Sys2Proof.Machine.execG13A k x blkC blkD s
  | .g13b k x blkC blkD => Sys2Proof.Machine.execG13B k x blkC blkD s
  | .g14a k x blkC blkD => Sys2Proof.Machine.execG14A k x blkC blkD s
  | .g14b k x blkC blkD => Sys2Proof.Machine.execG14B k x blkC blkD s
  | .g15a k x blkC blkD => Sys2Proof.Machine.execG15A k x blkC blkD s
  | .g15b k x blkC blkD => Sys2Proof.Machine.execG15B k x blkC blkD s

end Sys2Proof.Machine
end

