-- ==== Sys2Proof/Machine/Step.lean ====
section
/-! DEFINITION. One step of the machine (R5): the host's next move, taken whole. -/

namespace Sys2Proof.Machine

/-- One step: the next group is decoded and executed (R130), a reset is performed (R270), and with no move pending the
core is idle and nothing changes (R261, R272). -/
def step (s : State) : Host.Outcome State Fault Refusal :=
  match takeMove s with
  | none => .next s
  | some (.rst, s') => .next (resetStep s')
  | some (.grp g, s') => exec (decode g) s'

/-- The state in which the host presents, as its very next move, the group that the table word w stands for
(log entries 11 and 12). -/
def State.withFetchWord (s : State) (nbits w : Nat) : State := presentNext (groupOfTableWord nbits w) s

end Sys2Proof.Machine
end

