-- ==== Sys2Proof/Machine/Operands.lean ====
section
/-! DEFINITION. What each instruction gives the core: its row of the dispatch map (R88), its common operands, its
verdict at the gate, and the character and AF codes it carries (R85, R86). -/

namespace Sys2Proof.Machine

/-- The instruction's row of the dispatch map: GT = B[15:12], and VER = B[11], false for A and true for B (R82, R88). -/
def rowOf : Instr → BitVec 4 × Bool
  | .g0a .. => (0#4, false)
  | .g0b .. => (0#4, true)
  | .g1a .. => (1#4, false)
  | .g1b .. => (1#4, true)
  | .g2a .. => (2#4, false)
  | .g2b .. => (2#4, true)
  | .g3a .. => (3#4, false)
  | .g3b .. => (3#4, true)
  | .g4a .. => (4#4, false)
  | .g4b .. => (4#4, true)
  | .g5a .. => (5#4, false)
  | .g5b .. => (5#4, true)
  | .g6a .. => (6#4, false)
  | .g6b .. => (6#4, true)
  | .g7a .. => (7#4, false)
  | .g7b .. => (7#4, true)
  | .g8a .. => (8#4, false)
  | .g8b .. => (8#4, true)
  | .g9a .. => (9#4, false)
  | .g9b .. => (9#4, true)
  | .g10a .. => (10#4, false)
  | .g10b .. => (10#4, true)
  | .g11a .. => (11#4, false)
  | .g11b .. => (11#4, true)
  | .g12a .. => (12#4, false)
  | .g12b .. => (12#4, true)
  | .g13a .. => (13#4, false)
  | .g13b .. => (13#4, true)
  | .g14a .. => (14#4, false)
  | .g14b .. => (14#4, true)
  | .g15a .. => (15#4, false)
  | .g15b .. => (15#4, true)

/-- GT, the group type of an instruction (R82). -/
def gtOf (i : Instr) : BitVec 4 := (rowOf i).1

/-- VER, the version of an instruction: false for A, true for B (R82). -/
def verOf (i : Instr) : Bool := (rowOf i).2

/-- The operands every group has (R81, R82, R87). -/
def instrCommon : Instr → Common
  | .g0a k .. => k
  | .g0b k .. => k
  | .g1a k .. => k
  | .g1b k .. => k
  | .g2a k .. => k
  | .g2b k .. => k
  | .g3a k .. => k
  | .g3b k .. => k
  | .g4a k .. => k
  | .g4b k .. => k
  | .g5a k .. => k
  | .g5b k .. => k
  | .g6a k .. => k
  | .g6b k .. => k
  | .g7a k .. => k
  | .g7b k .. => k
  | .g8a k .. => k
  | .g8b k .. => k
  | .g9a k .. => k
  | .g9b k .. => k
  | .g10a k .. => k
  | .g10b k .. => k
  | .g11a k .. => k
  | .g11b k .. => k
  | .g12a k .. => k
  | .g12b k .. => k
  | .g13a k .. => k
  | .g13b k .. => k
  | .g14a k .. => k
  | .g14b k .. => k
  | .g15a k .. => k
  | .g15b k .. => k

/-- The gate's verdict on an instruction (R113). -/
def passes (i : Instr) : Bool := gatePass gateCdAlways (gtOf i) (verOf i) (instrCommon i)

/-- The character codes that the instruction's route looks up, in the order of their cells (R86, decision D7). -/
def charCodes : Instr → List Code
  | .g0a _ _ _ _ c1 c2 => [c1, c2]
  | .g0b _ _ _ c1 c2 => [c1, c2]
  | .g2a _ _ c1 c2 c3 c4 => [c1, c2, c3, c4]
  | .g2b _ _ _ c1 c2 => [c1, c2]
  | .g1a .. => []
  | .g1b .. => []
  | .g3a .. => []
  | .g3b .. => []
  | .g4a .. => []
  | .g4b .. => []
  | .g5a .. => []
  | .g5b .. => []
  | .g6a .. => []
  | .g6b .. => []
  | .g7a .. => []
  | .g7b .. => []
  | .g8a .. => []
  | .g8b .. => []
  | .g9a .. => []
  | .g9b .. => []
  | .g10a .. => []
  | .g10b .. => []
  | .g11a .. => []
  | .g11b .. => []
  | .g12a .. => []
  | .g12b .. => []
  | .g13a .. => []
  | .g13b .. => []
  | .g14a .. => []
  | .g14b .. => []
  | .g15a .. => []
  | .g15b .. => []

/-- The toggle of a group 2, none for every other group (R84). -/
def toggleOf : Instr → Option Bool
  | .g2a _ r .. => some r.ab
  | .g2b _ r .. => some r.ab
  | .g0a .. => none
  | .g0b .. => none
  | .g1a .. => none
  | .g1b .. => none
  | .g3a .. => none
  | .g3b .. => none
  | .g4a .. => none
  | .g4b .. => none
  | .g5a .. => none
  | .g5b .. => none
  | .g6a .. => none
  | .g6b .. => none
  | .g7a .. => none
  | .g7b .. => none
  | .g8a .. => none
  | .g8b .. => none
  | .g9a .. => none
  | .g9b .. => none
  | .g10a .. => none
  | .g10b .. => none
  | .g11a .. => none
  | .g11b .. => none
  | .g12a .. => none
  | .g12b .. => none
  | .g13a .. => none
  | .g13b .. => none
  | .g14a .. => none
  | .g14b .. => none
  | .g15a .. => none
  | .g15b .. => none

end Sys2Proof.Machine
end

