-- ==== Sys2Proof/Machine/Ports.lean ====
section
/-! DEFINITION. The read ports (R220 to R230): pure functions of the state and the configuration. -/

namespace Sys2Proof.Machine

/-- F100(c): the frequency of a valid code in units of 100 kHz, AF_BASE + (c - 1) × AF_STEP (R191). -/
def f100 (c : Nat) : Nat := afBase100 + (c - 1) * afStep100

/-- A frequency in MHz with one decimal place: `whole`.`tenths` (R195, R228). -/
structure Mhz where
  whole : Nat
  tenths : Nat
deriving DecidableEq, Repr

/-- F100/10 MHz with one decimal (R195). -/
def mhzOf (f : Nat) : Mhz := { whole := f / 10, tenths := f % 10 }

/-- The PI port (R221). -/
def portPi (s : State) : BitVec 16 := s.station.pi

/-- The NAME port (R222): the empty string for a PI the table does not hold. -/
def portName (s : State) : String := (Config.piNames s.station.pi).getD ""

/-- The PTY port (R223). -/
def portPty (s : State) : BitVec 5 := s.station.pty

/-- The PTY_LABEL port (R223). -/
def portPtyLabel (s : State) : String := Config.ptyLabels Config.region s.station.pty

/-- The TP port (R224). -/
def portTp (s : State) : Bool := s.station.tp

/-- The DI_SPTY port (R225). -/
def portDiSpty (s : State) : Bool := s.station.diSpty

/-- The DI_COMP port (R225). -/
def portDiComp (s : State) : Bool := s.station.diComp

/-- The DI_AH port (R225). -/
def portDiAh (s : State) : Bool := s.station.diAh

/-- The DI_ST port (R225). -/
def portDiSt (s : State) : Bool := s.station.diSt

/-- The PS port (R226): all 8 cells in index order. -/
def portPs (s : State) : List DisplayChar := s.station.ps.toList

/-- The RT port (R227): all 64 cells in index order. -/
def portRt (s : State) : List DisplayChar := s.station.rt.toList

/-- The codes in the AF set, ascending. -/
def afCodes (st : Station) : List Nat := (List.range 204).filter (afHas st)

/-- The AF port (R228): F100 of every code in the set, ascending. -/
def portAf (s : State) : List Nat := (afCodes s.station).map f100

/-- The AF port's entries as MHz with one decimal (R228). -/
def portAfMhz (s : State) : List Mhz := (portAf s).map mhzOf

/-- The SEEN port (R229): the group types seen, each once. -/
def portSeen (s : State) : List Nat := (List.range 16).filter s.station.seen.getLsbD

/-- The ACCEPT port (R80): the result of the last DECODE transaction, none before the first. -/
def portAccept (s : State) : Option Bool := s.accept

end Sys2Proof.Machine
end

