-- ==== Sys2Proof/Safety.lean ====
section
/-! DEFINITION. What a safe run of the core is, in the terms the statements use: the invariants of the state, and when
two states cannot be told apart. -/

namespace Sys2Proof.Safety

open Sys2Proof.Machine

/-- A character that a cell may hold (R37): BLANK, or what CHAR_ROM gives for some code. -/
def Renderable (x : DisplayChar) : Prop := x = blank ∨ ∃ code : Code, x = charRom code

/-- R37: every PS and RT cell holds BLANK or a value of CHAR_ROM. -/
def CellsRenderable (st : Station) : Prop :=
  (∀ j : Fin 8, Renderable st.ps[j]) ∧ (∀ j : Fin 64, Renderable st.rt[j])

/-- What a station that has accepted no group of some kind since its reset still holds, for the draw v of INIT made at
that reset (R35, R36, R155, R225): no group at all, PI, PTY and TP; no group 0, the DI flags, PS and AF; no group 2, RT
and RT_AB. -/
structure HistoryFits (v : InitValues) (st : Station) : Prop where
  common : st.seen = 0#16 → st.pi = v.pi ∧ st.pty = v.pty ∧ st.tp = v.tp
  groupZero : seenHas st 0#4 = false →
    st.diSpty = v.diSpty ∧ st.diComp = v.diComp ∧ st.diAh = v.diAh ∧ st.diSt = v.diSt ∧
      st.ps = Vector.replicate 8 blank ∧ st.af = 0#203
  groupTwo : seenHas st 2#4 = false → st.rt = Vector.replicate 64 blank ∧ st.rtAb = false

/-- Two states that agree on everything but RT_AB, and in which RT_AB agrees too or every RT cell is BLANK (R35). -/
def SameButBlankToggle (s t : State) : Prop :=
  t = { s with station := { s.station with rtAb := t.station.rtAb } } ∧
    (t.station.rtAb = s.station.rtAb ∨ s.station.rt = Vector.replicate 64 blank)

/-- Every read port of R220 shows the same in two states. -/
def PortsAgree (s t : State) : Prop :=
  portPi s = portPi t ∧ portName s = portName t ∧ portPty s = portPty t ∧ portPtyLabel s = portPtyLabel t ∧
    portTp s = portTp t ∧ portDiSpty s = portDiSpty t ∧ portDiComp s = portDiComp t ∧ portDiAh s = portDiAh t ∧
    portDiSt s = portDiSt t ∧ portPs s = portPs t ∧ portRt s = portRt t ∧ portAf s = portAf t ∧
    portAfMhz s = portAfMhz t ∧ portSeen s = portSeen t

/-- The 28 instructions of R133, each with its group type: every row of the opcode table whose type is not 0 or 2. -/
def noRouteForms : List ((Common → BitVec 5 → Block → Block → Instr) × BitVec 4) :=
  [(.g1a, 1#4), (.g1b, 1#4), (.g3a, 3#4), (.g3b, 3#4), (.g4a, 4#4), (.g4b, 4#4), (.g5a, 5#4), (.g5b, 5#4),
   (.g6a, 6#4), (.g6b, 6#4), (.g7a, 7#4), (.g7b, 7#4), (.g8a, 8#4), (.g8b, 8#4), (.g9a, 9#4), (.g9b, 9#4),
   (.g10a, 10#4), (.g10b, 10#4), (.g11a, 11#4), (.g11b, 11#4), (.g12a, 12#4), (.g12b, 12#4), (.g13a, 13#4), (.g13b, 13#4),
   (.g14a, 14#4), (.g14b, 14#4), (.g15a, 15#4), (.g15b, 15#4)]

/-- DI, the DI value bit of a group 0 header (R83), for the OPEN parameter DI_BIT. -/
def diBitOf (p : PsHeader) : Bool := if Config.diBit = .bit3 then p.b3 else p.b2

end Sys2Proof.Safety
end

