-- ==== Sys2Proof/Certificates/Slice0/Obligations.lean ====
section
/-! DEFINITION. The statements for the provers, one definition each. A docstring names the rule of spec/ that a statement
formalises, or says where it rests on a choice of the spec's authors or of the model. -/

open Sys2Proof Sys2Proof.Machine Sys2Proof.Safety

/-! ### Encoding -/

/-- Decoding the encoded form of any instruction gives it back. The field positions are the spec's decisions D3, D4, D6
and D28 (log entry 13). -/
def Obligations.DecodeOfEncodeIsIdentity : Prop := ∀ i : Instr, decode (encode i) = i

/-- Every one of the 2^72 groups decodes, and no bit of it is dropped: encoding what was decoded gives the group back
(log entries 13 and 20). -/
def Obligations.EncodeOfDecodeIsIdentity : Prop := ∀ g : Group, encode (decode g) = g

/-- Groups written out from the bit patterns of R89 decode to the instructions they stand for: one of each route. The
field positions are the spec's decisions D3, D4, D6 and D28 (log entry 13). -/
def Obligations.SampleGroupsDecode : Prop :=
  decode ⟨0xF832#16, 0b0000000010000000#16, 0x0B00#16, 0x4869#16, 0#2, 1#2, 2#2, 3#2⟩
      = .g0a ⟨0xF832#16, false, 4#5, 0#2, 1#2, 2#2, 3#2⟩ ⟨false, false, false, 0#2⟩ 11#8 0#8 0x48#8 0x69#8 ∧
  decode ⟨0x1234#16, 0b0000110101001101#16, 0x5678#16, 0x3120#16, 0#2, 0#2, 0#2, 0#2⟩
      = .g0b ⟨0x1234#16, true, 10#5, 0#2, 0#2, 0#2, 0#2⟩ ⟨false, true, true, 1#2⟩ 0x5678#16 0x31#8 0x20#8 ∧
  decode ⟨0xC201#16, 0b0010011111111110#16, 0x4142#16, 0x4344#16, 0#2, 0#2, 0#2, 0#2⟩
      = .g2a ⟨0xC201#16, true, 31#5, 0#2, 0#2, 0#2, 0#2⟩ ⟨true, 14#4⟩ 0x41#8 0x42#8 0x43#8 0x44#8 ∧
  decode ⟨0xC201#16, 0b0010100000000010#16, 0xC201#16, 0x2122#16, 0#2, 0#2, 0#2, 0#2⟩
      = .g2b ⟨0xC201#16, false, 0#5, 0#2, 0#2, 0#2, 0#2⟩ ⟨false, 2#4⟩ 0xC201#16 0x21#8 0x22#8 ∧
  decode ⟨0x5555#16, 0b0011100000011110#16, 0xFFFE#16, 0xFFFD#16, 0#2, 0#2, 0#2, 0#2⟩
      = .g3b ⟨0x5555#16, false, 0#5, 0#2, 0#2, 0#2, 0#2⟩ 30#5 0xFFFE#16 0xFFFD#16

/-- R88: the route is selected by B[15:11], by the match and mask of each of the 32 rows, and by nothing else. -/
def Obligations.DispatchMapMatchesBlockB : Prop :=
  (∀ (g : Group) (gt : BitVec 4) (ver : Bool),
    rowOf (decode g) = (gt, ver) ↔
      g.b &&& 0xF800#16 = (gt.setWidth 16 <<< 12) ||| ((BitVec.ofBool ver).setWidth 16 <<< 11)) ∧
  (∀ g : Group, (∃ k p af1 af2 c1 c2, decode g = .g0a k p af1 af2 c1 c2) ↔ g.b &&& 0xF800#16 = 0x0000#16) ∧
  (∀ g : Group, (∃ k p blkC c1 c2, decode g = .g0b k p blkC c1 c2) ↔ g.b &&& 0xF800#16 = 0x0800#16) ∧
  (∀ g : Group, (∃ k r c1 c2 c3 c4, decode g = .g2a k r c1 c2 c3 c4) ↔ g.b &&& 0xF800#16 = 0x2000#16) ∧
  (∀ g : Group, (∃ k r blkC c1 c2, decode g = .g2b k r blkC c1 c2) ↔ g.b &&& 0xF800#16 = 0x2800#16) ∧
  (∀ g : Group, (∃ f ∈ noRouteForms, ∃ k x blkC blkD, decode g = f.1 k x blkC blkD) ↔
    g.b.extractLsb' 12 4 ≠ 0#4 ∧ g.b.extractLsb' 12 4 ≠ 2#4)

/-- The symbolic constructors of R92 (the spec's own notation, decision D23) expand to groups that decode to the fields
they were written with. -/
def Obligations.SymbolicConstructorsDecodeToTheirFields : Prop :=
  ∀ (pi : Block) (tp : Bool) (pty : BitVec 5) (qa qb qc qd : Level) (c1 c2 c3 c4 : Code),
    (∀ di addr af1 af2,
      decode ((Symbolic.g0a pi tp pty di addr af1 af2 c1 c2).expand qa qb qc qd)
        = .g0a ⟨pi, tp, pty, qa, qb, qc, qd⟩ ⟨false, di, di, addr⟩ af1 af2 c1 c2) ∧
    (∀ di addr,
      decode ((Symbolic.g0b pi tp pty di addr c1 c2).expand qa qb qc qd)
        = .g0b ⟨pi, tp, pty, qa, qb, qc, qd⟩ ⟨false, di, di, addr⟩ pi c1 c2) ∧
    (∀ ab seg,
      decode ((Symbolic.g2a pi tp pty ab seg c1 c2 c3 c4).expand qa qb qc qd)
        = .g2a ⟨pi, tp, pty, qa, qb, qc, qd⟩ ⟨ab, seg⟩ c1 c2 c3 c4) ∧
    (∀ ab seg,
      decode ((Symbolic.g2b pi tp pty ab seg c1 c2).expand qa qb qc qd)
        = .g2b ⟨pi, tp, pty, qa, qb, qc, qd⟩ ⟨ab, seg⟩ pi c1 c2) ∧
    (∀ g v, (Symbolic.gx pi g v tp pty).wellFormed = true →
      ∃ f ∈ noRouteForms, f.2 = g ∧
        decode ((Symbolic.gx pi g v tp pty).expand qa qb qc qd)
          = f.1 ⟨pi, tp, pty, qa, qb, qc, qd⟩ 0#5 0#16 0#16 ∧
        verOf (decode ((Symbolic.gx pi g v tp pty).expand qa qb qc qd)) = v)

/-! ### Steps -/

/-- A step whose next move is a group runs the decoded instruction, on the state with that move taken away. The queue of
moves is the model's (log entry 1). -/
def Obligations.StepRunsTheDecodedGroup : Prop :=
  ∀ (s : State) (g : Group) (rest : List HostMove), s.pending = .grp g :: rest →
    step s = exec (decode g) { s with pending := rest }

/-- A step whose next move is RESET gives every element of R20 its reset value, from a fresh draw of INIT, and takes the
move away; ACCEPT keeps the last result. R270 is marked with decisions D12, D13 and D17; the queue, the counter of draws
and ACCEPT are the model's (log entries 1, 2, 3, 9). -/
def Obligations.StepPerformsReset : Prop :=
  ∀ (s : State) (rest : List HostMove), s.pending = .rst :: rest →
    ∃ t, step s = .next t ∧ t.pending = rest ∧ t.accept = s.accept ∧ t.initDraws = s.initDraws + 1 ∧
      t.station.pi = (Config.init s.initDraws).pi ∧ t.station.pty = (Config.init s.initDraws).pty ∧
      t.station.tp = (Config.init s.initDraws).tp ∧ t.station.diSpty = (Config.init s.initDraws).diSpty ∧
      t.station.diComp = (Config.init s.initDraws).diComp ∧ t.station.diAh = (Config.init s.initDraws).diAh ∧
      t.station.diSt = (Config.init s.initDraws).diSt ∧
      (∀ j : Fin 8, t.station.ps[j] = ' ') ∧ (∀ j : Fin 64, t.station.rt[j] = ' ') ∧
      t.station.rtAb = false ∧ (∀ c, afHas t.station c = false) ∧ (∀ g, seenHas t.station g = false)

/-- With no move of the host pending the core is idle and nothing changes (the model's reading of 60 and 70: log
entry 1). -/
def Obligations.IdleStepChangesNothing : Prop := ∀ s : State, s.pending = [] → step s = .next s

/-- The state right after reset, in summary (R273, which the spec derives): PS and RT blank, AF and SEEN empty, RT_AB 0
(decision D13), PI, PTY, TP and the DI flags as INIT draws them; no result and no move yet (log entries 1, 2, 3, 9). -/
def Obligations.ResetStateValues : Prop :=
  (∀ j : Fin 8, State.reset.station.ps[j] = ' ') ∧ (∀ j : Fin 64, State.reset.station.rt[j] = ' ') ∧
  State.reset.station.rtAb = false ∧
  (∀ c, afHas State.reset.station c = false) ∧ (∀ g, seenHas State.reset.station g = false) ∧
  (∃ n, ∃ v : InitValues, v = Config.init n ∧ State.reset.station.pi = v.pi ∧ State.reset.station.pty = v.pty ∧
    State.reset.station.tp = v.tp ∧ State.reset.station.diSpty = v.diSpty ∧ State.reset.station.diComp = v.diComp ∧
    State.reset.station.diAh = v.diAh ∧ State.reset.station.diSt = v.diSt) ∧
  State.reset.accept = none ∧ State.reset.pending = []

/-- The core never stops: every step, from every state, answers a next state. That there is no trap is decision D16
(log entry 18). -/
def Obligations.EveryStepAnswersANextState : Prop := ∀ s : State, ∃ t, step s = .next t

/-- A table word placed with withFetchWord is what the very next step runs, and running it takes the word away again
(log entries 11 and 12). -/
def Obligations.StepRunsThePlacedTableWord : Prop :=
  ∀ (s : State) (nbits w : Nat) (i : Instr), decodeTableWord nbits w = some i →
    step (s.withFetchWord nbits w) = exec i s

/-! ### The confidence gate -/

/-- R110: usable(q, th) is the unsigned comparison q <= th, with its full table. -/
def Obligations.UsableComparesUnsigned : Prop :=
  (∀ q th : Level, usable q th = true ↔ q.toNat ≤ th.toNat) ∧
  usable 0#2 1#2 = true ∧ usable 0#2 2#2 = true ∧ usable 1#2 1#2 = true ∧ usable 1#2 2#2 = true ∧
  usable 2#2 1#2 = false ∧ usable 2#2 2#2 = true ∧ usable 3#2 1#2 = false ∧ usable 3#2 2#2 = false

/-- R111: the four thresholds; block B's is the strictest; level 3 is never usable. -/
def Obligations.ThresholdsAndLevelThree : Prop :=
  thA = 2#2 ∧ thB = 1#2 ∧ thC = 2#2 ∧ thD = 2#2 ∧
  (∀ th ∈ [thA, thC, thD], thB.toNat < th.toNat) ∧
  (∀ th ∈ [thA, thB, thC, thD], usable 3#2 th = false)

/-- Which blocks each route needs: A and B always, so no group passes without both usable, for either value of
GATE_CD_ALWAYS; C for G0A and G2A; D for groups 0 and 2. What "needed" means is the spec's decision D9; with
GATE_CD_ALWAYS, its alternative, C and D are gated on every group (log entry 8). -/
def Obligations.NeededBlocksByRoute : Prop :=
  (∀ always gt ver k, gatePass always gt ver k = true → k.qa.toNat ≤ 2 ∧ k.qb.toNat ≤ 1) ∧
  (∀ gt ver, needC false gt ver = true ↔ (gt = 0#4 ∨ gt = 2#4) ∧ ver = false) ∧
  (∀ gt, needD false gt = true ↔ gt = 0#4 ∨ gt = 2#4) ∧
  (∀ gt ver k, gatePass true gt ver k = true ↔
    k.qa.toNat ≤ 2 ∧ k.qb.toNat ≤ 1 ∧ k.qc.toNat ≤ 2 ∧ k.qd.toNat ≤ 2) ∧
  gateCdAlways = false

/-- R113: the verdict. A group is accepted exactly when every needed block's level is usable, and otherwise the whole
group is rejected; a level on a block that is not needed does not come into it. -/
def Obligations.VerdictOfEveryGroup : Prop :=
  ∀ (i : Instr) (s : State),
    let k := instrCommon i
    let pass := usable k.qa thA = true ∧ usable k.qb thB = true ∧
      (needC gateCdAlways (gtOf i) (verOf i) = true → usable k.qc thC = true) ∧
      (needD gateCdAlways (gtOf i) = true → usable k.qd thD = true)
    ∃ t, exec i s = .next t ∧ (t.accept = some true ↔ pass) ∧ (t.accept = some false ↔ ¬ pass)

/-- R114: a group that fails the gate ends with ACCEPT = 0 and S' = S, and the next transaction is taken normally. -/
def Obligations.RejectionChangesNothing : Prop :=
  ∀ (i : Instr) (s : State), passes i = false →
    exec i s = .next { s with accept := some false } ∧
    ∀ j : Instr, exec j { s with accept := some false } = exec j s

/-- The verdict depends on the four levels and B[15:11] only, and never on the state (R117, which the spec derives). -/
def Obligations.AcceptanceReadsNoState : Prop :=
  ∀ (i j : Instr) (s s' t t' : State), rowOf i = rowOf j →
    (instrCommon i).qa = (instrCommon j).qa → (instrCommon i).qb = (instrCommon j).qb →
    (instrCommon i).qc = (instrCommon j).qc → (instrCommon i).qd = (instrCommon j).qd →
    exec i s = .next t → exec j s' = .next t' → t.accept = t'.accept

/-- Every group ends in exactly one of two outcomes: accepted with ACCEPT = 1, or rejected with ACCEPT = 0 and the
station unchanged. -/
def Obligations.ExactlyTwoOutcomes : Prop :=
  ∀ (i : Instr) (s : State), ∃ t, exec i s = .next t ∧
    ((passes i = true ∧ t.accept = some true ∧ seenHas t.station (gtOf i) = true) ∨
     (passes i = false ∧ t.accept = some false ∧ t.station = s.station))

/-! ### Common fields, SEEN, and the groups without a route -/

/-- Every accepted group, whatever its route, stores block A as PI, B[10] as TP and B[9:5] as PTY. The positions of TP
and PTY are decision D3 (log entry 13). -/
def Obligations.AcceptedGroupWritesCommonFields : Prop :=
  ∀ (g : Group) (s : State), passes (decode g) = true →
    ∃ t, exec (decode g) s = .next t ∧ t.station.pi = g.a ∧ t.station.tp = g.b.getLsbD 10 ∧
      t.station.pty = g.b.extractLsb' 5 5

/-- R81: the whole of block A is stored as PI on every accepted group, and nothing else is taken from it: another block A
changes PI alone. -/
def Obligations.BlockAIsStoredAsPiAlone : Prop :=
  ∀ (g : Group) (a : Block) (s : State), passes (decode g) = true →
    ∃ t, exec (decode g) s = .next t ∧ t.station.pi = g.a ∧
      exec (decode { g with a := a }) s = .next { t with station := { t.station with pi := a } }

/-- R134: every accepted group sets SEEN[GT], for types 0 and 2 too, and no other bit; the version is not recorded; a
rejected group sets nothing. -/
def Obligations.AcceptedGroupMarksItsTypeSeen : Prop :=
  (∀ (i : Instr) (s : State), passes i = true →
    ∃ t, exec i s = .next t ∧ seenHas t.station (gtOf i) = true ∧
      ∀ g, g ≠ gtOf i → seenHas t.station g = seenHas s.station g) ∧
  (∀ (i : Instr) (s : State), passes i = false → ∃ t, exec i s = .next t ∧ t.station.seen = s.station.seen) ∧
  (∀ k p af1 af2 c1 c2, gtOf (.g0a k p af1 af2 c1 c2) = 0#4) ∧
  (∀ k p blkC c1 c2, gtOf (.g0b k p blkC c1 c2) = 0#4)

/-- R133: a group of any type other than 0 and 2 writes PI, TP, PTY and SEEN[GT] and nothing else, whatever B[4:0],
blocks C and D and their levels are. -/
def Obligations.OtherGroupTypesWriteOnlyCommonFieldsAndSeen : Prop :=
  ∀ (g : Group) (s : State), g.b.extractLsb' 12 4 ≠ 0#4 → g.b.extractLsb' 12 4 ≠ 2#4 →
    g.qa.toNat ≤ 2 → g.qb.toNat ≤ 1 →
    exec (decode g) s = .next { s with
      station := { s.station with
        pi := g.a
        tp := g.b.getLsbD 10
        pty := g.b.extractLsb' 5 5
        seen := s.station.seen ||| (1#16 <<< (g.b.extractLsb' 12 4).toNat) }
      accept := some true }

/-- The 28 instructions G1A, G1B, G3A, G3B, … G15A, G15B complete whenever blocks A and B are usable, with exactly these
writes. -/
def Obligations.NoRouteInstructionsComplete : Prop :=
  ∀ f ∈ noRouteForms, ∀ (k : Common) (x : BitVec 5) (blkC blkD : Block) (s : State),
    k.qa.toNat ≤ 2 → k.qb.toNat ≤ 1 →
    exec (f.1 k x blkC blkD) s = .next { s with
      station := { s.station with
        pi := k.pi, tp := k.tp, pty := k.pty, seen := s.station.seen ||| (1#16 <<< f.2.toNat) }
      accept := some true }

/-- The frame of the same 28 instructions, accepted or rejected: PS, RT, RT_AB, AF, the DI flags, every other SEEN bit,
and the host's side are unchanged. -/
def Obligations.NoRouteInstructionsFrame : Prop :=
  ∀ f ∈ noRouteForms, ∀ (k : Common) (x : BitVec 5) (blkC blkD : Block) (s t : State),
    exec (f.1 k x blkC blkD) s = .next t →
      t.station.diSpty = s.station.diSpty ∧ t.station.diComp = s.station.diComp ∧
      t.station.diAh = s.station.diAh ∧ t.station.diSt = s.station.diSt ∧
      t.station.ps = s.station.ps ∧ t.station.rt = s.station.rt ∧ t.station.rtAb = s.station.rtAb ∧
      t.station.af = s.station.af ∧ (∀ g, g ≠ f.2 → seenHas t.station g = seenHas s.station g) ∧
      t.pending = s.pending ∧ t.initDraws = s.initDraws

/-! ### Group 0 -/

/-- G0A completes whenever all four blocks are usable, with the whole effect the spec gives it. DI_BIT, DI_INV[1] and
DI_INV[2] are OPEN parameters (log entries 5 and 6). -/
def Obligations.GroupZeroACompletes : Prop :=
  ∀ (k : Common) (p : PsHeader) (af1 af2 c1 c2 : Code) (s : State),
    k.qa.toNat ≤ 2 → k.qb.toNat ≤ 1 → k.qc.toNat ≤ 2 → k.qd.toNat ≤ 2 →
    ∃ t, exec (.g0a k p af1 af2 c1 c2) s = .next t ∧ t.accept = some true ∧
      t.station.pi = k.pi ∧ t.station.tp = k.tp ∧ t.station.pty = k.pty ∧
      t.station.diSpty = (if p.addr = 0#2 then !diBitOf p else s.station.diSpty) ∧
      t.station.diComp = (if p.addr = 1#2 then (diBitOf p).xor Config.diInv1 else s.station.diComp) ∧
      t.station.diAh = (if p.addr = 2#2 then (diBitOf p).xor Config.diInv2 else s.station.diAh) ∧
      t.station.diSt = (if p.addr = 3#2 then diBitOf p else s.station.diSt) ∧
      (∀ j : Fin 8, t.station.ps[j] =
        if j.val = 2 * p.addr.toNat then charRom c1
        else if j.val = 2 * p.addr.toNat + 1 then charRom c2 else s.station.ps[j]) ∧
      (∀ n, afHas t.station n = true ↔ afHas s.station n = true ∨
        (n = af1.toNat ∧ 0 < n ∧ n < 204) ∨ (n = af2.toNat ∧ 0 < n ∧ n < 204)) ∧
      (∀ g, seenHas t.station g = true ↔ seenHas s.station g = true ∨ g = 0#4) ∧
      t.station.rt = s.station.rt ∧ t.station.rtAb = s.station.rtAb ∧
      t.pending = s.pending ∧ t.initDraws = s.initDraws

/-- G0B completes whenever blocks A, B and D are usable, with the whole effect the spec gives it: no AF feed, whatever
block C and its level are. DI_BIT, DI_INV[1] and DI_INV[2] are OPEN parameters (log entries 5 and 6). -/
def Obligations.GroupZeroBCompletes : Prop :=
  ∀ (k : Common) (p : PsHeader) (blkC : Block) (c1 c2 : Code) (s : State),
    k.qa.toNat ≤ 2 → k.qb.toNat ≤ 1 → k.qd.toNat ≤ 2 →
    ∃ t, exec (.g0b k p blkC c1 c2) s = .next t ∧ t.accept = some true ∧
      t.station.pi = k.pi ∧ t.station.tp = k.tp ∧ t.station.pty = k.pty ∧
      t.station.diSpty = (if p.addr = 0#2 then !diBitOf p else s.station.diSpty) ∧
      t.station.diComp = (if p.addr = 1#2 then (diBitOf p).xor Config.diInv1 else s.station.diComp) ∧
      t.station.diAh = (if p.addr = 2#2 then (diBitOf p).xor Config.diInv2 else s.station.diAh) ∧
      t.station.diSt = (if p.addr = 3#2 then diBitOf p else s.station.diSt) ∧
      (∀ j : Fin 8, t.station.ps[j] =
        if j.val = 2 * p.addr.toNat then charRom c1
        else if j.val = 2 * p.addr.toNat + 1 then charRom c2 else s.station.ps[j]) ∧
      t.station.af = s.station.af ∧
      (∀ g, seenHas t.station g = true ↔ seenHas s.station g = true ∨ g = 0#4) ∧
      t.station.rt = s.station.rt ∧ t.station.rtAb = s.station.rtAb ∧
      t.pending = s.pending ∧ t.initDraws = s.initDraws

/-- R153: the two codes of block D are looked up and written to PS[2*ADDR] and PS[2*ADDR + 1], the high byte's character
to the lower cell, for every accepted group 0; no other cell is written. -/
def Obligations.GroupZeroWritesThePsPair : Prop :=
  ∀ (i : Instr) (k : Common) (p : PsHeader) (af1 af2 : Code) (blkC : Block) (c1 c2 : Code) (s : State),
    (i = .g0a k p af1 af2 c1 c2 ∨ i = .g0b k p blkC c1 c2) → passes i = true →
    (encode i).d.extractLsb' 8 8 = c1 ∧ (encode i).d.extractLsb' 0 8 = c2 ∧
    ∃ t, exec i s = .next t ∧
      (∀ j : Fin 8, j.val = 2 * p.addr.toNat → t.station.ps[j] = charRom c1) ∧
      (∀ j : Fin 8, j.val = 2 * p.addr.toNat + 1 → t.station.ps[j] = charRom c2) ∧
      (∀ j : Fin 8, j.val ≠ 2 * p.addr.toNat → j.val ≠ 2 * p.addr.toNat + 1 → t.station.ps[j] = s.station.ps[j])

/-- The frame of G0A and G0B, accepted or rejected: cells other than the pair, flags other than the selected one, SEEN
bits other than 0, AF codes other than the group's own (all of AF for G0B), RT, RT_AB and the host's side are
unchanged. -/
def Obligations.GroupZeroFrame : Prop :=
  ∀ (k : Common) (p : PsHeader) (af1 af2 : Code) (blkC : Block) (c1 c2 : Code) (s t : State) (isA : Bool),
    exec (if isA then .g0a k p af1 af2 c1 c2 else .g0b k p blkC c1 c2) s = .next t →
      (∀ j : Fin 8, j.val ≠ 2 * p.addr.toNat → j.val ≠ 2 * p.addr.toNat + 1 → t.station.ps[j] = s.station.ps[j]) ∧
      (p.addr ≠ 0#2 → t.station.diSpty = s.station.diSpty) ∧ (p.addr ≠ 1#2 → t.station.diComp = s.station.diComp) ∧
      (p.addr ≠ 2#2 → t.station.diAh = s.station.diAh) ∧ (p.addr ≠ 3#2 → t.station.diSt = s.station.diSt) ∧
      (∀ g, g ≠ 0#4 → seenHas t.station g = seenHas s.station g) ∧
      (∀ n, n ≠ af1.toNat → n ≠ af2.toNat → afHas t.station n = afHas s.station n) ∧
      (isA = false → t.station.af = s.station.af) ∧
      t.station.rt = s.station.rt ∧ t.station.rtAb = s.station.rtAb ∧
      t.pending = s.pending ∧ t.initDraws = s.initDraws

/-! ### Group 2 -/

/-- G2A completes whenever all four blocks are usable, with the whole effect the spec gives it. The order of the four
characters is decision D7 (log entry 14). -/
def Obligations.GroupTwoACompletes : Prop :=
  ∀ (k : Common) (r : RtHeader) (c1 c2 c3 c4 : Code) (s : State),
    k.qa.toNat ≤ 2 → k.qb.toNat ≤ 1 → k.qc.toNat ≤ 2 → k.qd.toNat ≤ 2 →
    ∃ t, exec (.g2a k r c1 c2 c3 c4) s = .next t ∧ t.accept = some true ∧
      t.station.pi = k.pi ∧ t.station.tp = k.tp ∧ t.station.pty = k.pty ∧ t.station.rtAb = r.ab ∧
      (∀ j : Fin 64, t.station.rt[j] =
        if j.val = 4 * r.seg.toNat then charRom c1
        else if j.val = 4 * r.seg.toNat + 1 then charRom c2
        else if j.val = 4 * r.seg.toNat + 2 then charRom c3
        else if j.val = 4 * r.seg.toNat + 3 then charRom c4
        else if r.ab = s.station.rtAb then s.station.rt[j] else ' ') ∧
      (∀ g, seenHas t.station g = true ↔ seenHas s.station g = true ∨ g = 2#4) ∧
      t.station.ps = s.station.ps ∧ t.station.af = s.station.af ∧
      t.station.diSpty = s.station.diSpty ∧ t.station.diComp = s.station.diComp ∧
      t.station.diAh = s.station.diAh ∧ t.station.diSt = s.station.diSt ∧
      t.pending = s.pending ∧ t.initDraws = s.initDraws

/-- G2B completes whenever blocks A, B and D are usable, with the whole effect the spec gives it, whatever block C and
its level are. -/
def Obligations.GroupTwoBCompletes : Prop :=
  ∀ (k : Common) (r : RtHeader) (blkC : Block) (c1 c2 : Code) (s : State),
    k.qa.toNat ≤ 2 → k.qb.toNat ≤ 1 → k.qd.toNat ≤ 2 →
    ∃ t, exec (.g2b k r blkC c1 c2) s = .next t ∧ t.accept = some true ∧
      t.station.pi = k.pi ∧ t.station.tp = k.tp ∧ t.station.pty = k.pty ∧ t.station.rtAb = r.ab ∧
      (∀ j : Fin 64, t.station.rt[j] =
        if j.val = 2 * r.seg.toNat then charRom c1
        else if j.val = 2 * r.seg.toNat + 1 then charRom c2
        else if r.ab = s.station.rtAb then s.station.rt[j] else ' ') ∧
      (∀ g, seenHas t.station g = true ↔ seenHas s.station g = true ∨ g = 2#4) ∧
      t.station.ps = s.station.ps ∧ t.station.af = s.station.af ∧
      t.station.diSpty = s.station.diSpty ∧ t.station.diComp = s.station.diComp ∧
      t.station.diAh = s.station.diAh ∧ t.station.diSt = s.station.diSt ∧
      t.pending = s.pending ∧ t.initDraws = s.initDraws

/-- R172: a toggle that differs from the stored one blanks all of RT and is stored, before the segment is written (so
outside the segment of `width` cells from `width * SEG` every cell is BLANK, and inside every one of the `width` cells
holds the group's own character for it); an equal toggle clears nothing and RT_AB keeps its value. The check touches only
RT and RT_AB. A rejected group performs no check and no clear. -/
def Obligations.ToggleFlipClearsRadioText : Prop :=
  ∀ (i : Instr) (k : Common) (r : RtHeader) (c1 c2 c3 c4 : Code) (blkC : Block) (s : State) (width : Nat),
    (i = .g2a k r c1 c2 c3 c4 ∧ width = 4) ∨ (i = .g2b k r blkC c1 c2 ∧ width = 2) →
    ∃ t, exec i s = .next t ∧
      (passes i = true → r.ab ≠ s.station.rtAb →
        t.station.rtAb = r.ab ∧
        (∀ j : Fin 64, (j.val < width * r.seg.toNat ∨ width * r.seg.toNat + width ≤ j.val) →
          t.station.rt[j] = blank)) ∧
      (passes i = true → ∀ (n : Nat) (j : Fin 64), n < width → j.val = width * r.seg.toNat + n →
        (charCodes i)[n]?.map charRom = some t.station.rt[j]) ∧
      (passes i = true → r.ab = s.station.rtAb →
        t.station.rtAb = s.station.rtAb ∧
        (∀ j : Fin 64, (j.val < width * r.seg.toNat ∨ width * r.seg.toNat + width ≤ j.val) →
          t.station.rt[j] = s.station.rt[j])) ∧
      (t.station.ps = s.station.ps ∧ t.station.af = s.station.af ∧
        t.station.diSpty = s.station.diSpty ∧ t.station.diComp = s.station.diComp ∧
        t.station.diAh = s.station.diAh ∧ t.station.diSt = s.station.diSt ∧
        (∀ g, g ≠ 2#4 → seenHas t.station g = seenHas s.station g)) ∧
      (passes i = true → t.station.pi = k.pi ∧ t.station.pty = k.pty ∧ t.station.tp = k.tp) ∧
      (passes i = false → t.station.rt = s.station.rt ∧ t.station.rtAb = s.station.rtAb)

/-- R173: the k-th character of a segment goes to cell width × SEG + k, with width 4 for version A and 2 for version B,
and these cells always lie within 0 to 63. -/
def Obligations.SegmentCharactersGoToTheirCells : Prop :=
  (∀ (k : Common) (r : RtHeader) (c1 c2 c3 c4 : Code) (s : State), passes (.g2a k r c1 c2 c3 c4) = true →
    ∃ t, exec (.g2a k r c1 c2 c3 c4) s = .next t ∧
      ∀ n, (hn : n < [c1, c2, c3, c4].length) →
        ∃ h : 4 * r.seg.toNat + n < 64, t.station.rt[4 * r.seg.toNat + n] = charRom [c1, c2, c3, c4][n]) ∧
  (∀ (k : Common) (r : RtHeader) (blkC : Block) (c1 c2 : Code) (s : State), passes (.g2b k r blkC c1 c2) = true →
    ∃ t, exec (.g2b k r blkC c1 c2) s = .next t ∧
      ∀ n, (hn : n < [c1, c2].length) →
        ∃ h : 2 * r.seg.toNat + n < 64, t.station.rt[2 * r.seg.toNat + n] = charRom [c1, c2][n])

/-- No G2B group writes RT[32..63]: such a cell keeps its value or is cleared by a toggle flip (R175, which the spec
derives). -/
def Obligations.VersionBReachesOnlyTheLowerHalf : Prop :=
  ∀ (k : Common) (r : RtHeader) (blkC : Block) (c1 c2 : Code) (s t : State),
    exec (.g2b k r blkC c1 c2) s = .next t →
      ∀ j : Fin 64, 32 ≤ j.val →
        t.station.rt[j] = s.station.rt[j] ∨ (t.station.rt[j] = blank ∧ r.ab ≠ s.station.rtAb)

/-- The frame of G2A and G2B, accepted or rejected: PS, the DI flags, AF, every SEEN bit but 2, and the host's side are
unchanged, and with an unchanged toggle so is every RT cell outside the segment. -/
def Obligations.GroupTwoFrame : Prop :=
  ∀ (k : Common) (r : RtHeader) (blkC : Block) (c1 c2 c3 c4 : Code) (s t : State) (isA : Bool),
    exec (if isA then .g2a k r c1 c2 c3 c4 else .g2b k r blkC c1 c2) s = .next t →
      (r.ab = s.station.rtAb → t.station.rtAb = s.station.rtAb ∧
        ∀ j : Fin 64,
          (j.val < (if isA then 4 else 2) * r.seg.toNat ∨
            (if isA then 4 else 2) * r.seg.toNat + (if isA then 4 else 2) ≤ j.val) →
          t.station.rt[j] = s.station.rt[j]) ∧
      t.station.ps = s.station.ps ∧ t.station.af = s.station.af ∧
      t.station.diSpty = s.station.diSpty ∧ t.station.diComp = s.station.diComp ∧
      t.station.diAh = s.station.diAh ∧ t.station.diSt = s.station.diSt ∧
      (∀ g, g ≠ 2#4 → seenHas t.station g = seenHas s.station g) ∧
      t.pending = s.pending ∧ t.initDraws = s.initDraws

/-! ### DI flags -/

/-- An accepted group 0 writes the one DI flag its sub-address B[1:0] selects, from B[DI_BIT] corrected by that flag's
polarity, and no other. R152 is marked with decisions D5 and D8: DI_BIT, DI_INV[1] and DI_INV[2] are OPEN (log entries 5
and 6); ADDR's position is decision D4 (log entry 13). -/
def Obligations.SubAddressSelectsTheDiFlag : Prop :=
  ∀ (g : Group) (s : State), g.b.extractLsb' 12 4 = 0#4 → passes (decode g) = true →
    ∃ di, di = (if Config.diBit = .bit3 then g.b.getLsbD 3 else g.b.getLsbD 2) ∧
    ∃ t, exec (decode g) s = .next t ∧
      (g.b.extractLsb' 0 2 = 0#2 → t.station.diSpty = !di ∧ t.station.diComp = s.station.diComp ∧
        t.station.diAh = s.station.diAh ∧ t.station.diSt = s.station.diSt) ∧
      (g.b.extractLsb' 0 2 = 1#2 → t.station.diComp = di.xor Config.diInv1 ∧ t.station.diSpty = s.station.diSpty ∧
        t.station.diAh = s.station.diAh ∧ t.station.diSt = s.station.diSt) ∧
      (g.b.extractLsb' 0 2 = 2#2 → t.station.diAh = di.xor Config.diInv2 ∧ t.station.diSpty = s.station.diSpty ∧
        t.station.diComp = s.station.diComp ∧ t.station.diSt = s.station.diSt) ∧
      (g.b.extractLsb' 0 2 = 3#2 → t.station.diSt = di ∧ t.station.diSpty = s.station.diSpty ∧
        t.station.diComp = s.station.diComp ∧ t.station.diAh = s.station.diAh)

/-- R154: PS_ROUTE is DI_UPDATE and then PS_WRITE; the two write disjoint state, so the other order gives the same; and
the route reads no state, so what it writes is the same from every state. -/
def Obligations.PsRouteOrderCannotBeObserved : Prop :=
  ∀ (p : PsHeader) (c1 c2 : Code) (st st' : Station),
    psRoute p c1 c2 st = psWrite p.addr c1 c2 (diUpdate p st) ∧
    psRoute p c1 c2 st = diUpdate p (psWrite p.addr c1 c2 st) ∧
    (∀ j : Fin 8, (j.val = 2 * p.addr.toNat ∨ j.val = 2 * p.addr.toNat + 1) →
      (psRoute p c1 c2 st).ps[j] = (psRoute p c1 c2 st').ps[j]) ∧
    (p.addr = 0#2 → (psRoute p c1 c2 st).diSpty = (psRoute p c1 c2 st').diSpty) ∧
    (p.addr = 1#2 → (psRoute p c1 c2 st).diComp = (psRoute p c1 c2 st').diComp) ∧
    (p.addr = 2#2 → (psRoute p c1 c2 st).diAh = (psRoute p c1 c2 st').diAh) ∧
    (p.addr = 3#2 → (psRoute p c1 c2 st).diSt = (psRoute p c1 c2 st').diSt)

/-! ### Characters -/

/-- The two entries of CHAR_ROM that the source pins, and BLANK. The other entries are OPEN (decision D19, log entry 4);
BLANK is decision D10 (log entry 10). -/
def Obligations.PinnedCharacters : Prop := charRom 0x48#8 = 'H' ∧ charRom 0x69#8 = 'i' ∧ blank.toNat = 0x20

/-! ### Alternate frequencies -/

/-- R190: a code c with 0 < c < 204 is inserted into the AF set and any other is dropped; a G0A feeds its two codes; no
other group feeds one; and a code, dropped or not, affects neither ACCEPT nor any other write of the group. -/
def Obligations.GroupZeroAFeedsItsTwoAfCodes : Prop :=
  (∀ (k : Common) (p : PsHeader) (af1 af2 c1 c2 : Code) (s : State), passes (.g0a k p af1 af2 c1 c2) = true →
    ∃ t, exec (.g0a k p af1 af2 c1 c2) s = .next t ∧
      ∀ n, afHas t.station n = true ↔ afHas s.station n = true ∨
        (n = af1.toNat ∧ 0 < n ∧ n < 204) ∨ (n = af2.toNat ∧ 0 < n ∧ n < 204)) ∧
  (∀ (i : Instr) (s t : State), rowOf i ≠ (0#4, false) → exec i s = .next t → t.station.af = s.station.af) ∧
  (∀ (k : Common) (p : PsHeader) (af1 af2 af1' af2' c1 c2 : Code) (s t t' : State),
    exec (.g0a k p af1 af2 c1 c2) s = .next t → exec (.g0a k p af1' af2' c1 c2) s = .next t' →
      t' = { t with station := { t.station with af := t'.station.af } })

/-- The order in which the two AF codes of a group are fed cannot be observed (R196, which the spec derives). -/
def Obligations.AfCodeOrderCannotBeObserved : Prop :=
  ∀ (k : Common) (p : PsHeader) (af1 af2 c1 c2 : Code) (s : State),
    exec (.g0a k p af1 af2 c1 c2) s = exec (.g0a k p af2 af1 c1 c2) s

/-- R191: the frequency of a valid code in exact units of 100 kHz: 87.6 MHz plus 0.1 MHz a code, 875 + c, from 876 (code
1) to 1078 (code 203), strictly increasing. -/
def Obligations.AfFrequencyOfACode : Prop :=
  (∀ c, 1 ≤ c → c ≤ 203 →
    f100 c = 876 + (c - 1) * 1 ∧ f100 c = 875 + c ∧ 876 ≤ f100 c ∧ f100 c ≤ 1078) ∧
  (∀ c d, 1 ≤ c → c < d → d ≤ 203 → f100 c < f100 d) ∧
  f100 1 = 876 ∧ f100 203 = 1078 ∧ mhzOf (f100 1) = ⟨87, 6⟩ ∧ mhzOf (f100 203) = ⟨107, 8⟩

/-- R193: a code 0 or 204 to 255 acts like no code at all: it leaves AF unchanged and sets no other state, it does not
limit or reset the set, and no other code is treated as a pair with it. -/
def Obligations.ExtendedAfCodesAreNotInterpreted : Prop :=
  ∀ (k : Common) (p : PsHeader) (ext af c1 c2 : Code) (blkC : Block) (s : State),
    ext.toNat = 0 ∨ 204 ≤ ext.toNat →
      exec (.g0a k p ext af c1 c2) s = exec (.g0a k p 0#8 af c1 c2) s ∧
      exec (.g0a k p af ext c1 c2) s = exec (.g0a k p af 0#8 c1 c2) s ∧
      (passes (.g0a k p ext ext c1 c2) = true →
        exec (.g0a k p ext ext c1 c2) s = exec (.g0b k p blkC c1 c2) s)

/-- R194: only block C of a G0A group reaches the AF set: no other group changes it, and neither does any field of block
D. -/
def Obligations.OnlyBlockCOfGroupZeroAReachesTheAfSet : Prop :=
  (∀ (i : Instr) (s t : State), (∀ k p af1 af2 c1 c2, i ≠ .g0a k p af1 af2 c1 c2) → exec i s = .next t →
    t.station.af = s.station.af) ∧
  (∀ (k : Common) (p : PsHeader) (af1 af2 c1 c2 c1' c2' : Code) (s t t' : State),
    exec (.g0a k p af1 af2 c1 c2) s = .next t → exec (.g0a k p af1 af2 c1' c2') s = .next t' →
      t.station.af = t'.station.af)

/-! ### Properties of the whole core -/

/-- R38: AF and SEEN only grow: no group, accepted or rejected, clears a bit of either. -/
def Obligations.AfAndSeenOnlyGrow : Prop :=
  ∀ (i : Instr) (s t : State), exec i s = .next t →
    (∀ c, afHas s.station c = true → afHas t.station c = true) ∧
    (∀ g, seenHas s.station g = true → seenHas t.station g = true)

/-- Apart from reset the A/B clear is the only event that removes content: every element keeps its value, or takes
one from the group, or grows; a BLANK that no code of the group gives comes only from a changed toggle (R178). Which bit of
block B is the DI bit and two of its polarities are OPEN (R152, decisions D5 and D8; log entries 5 and 6): the statement
allows either bit and takes the polarities from Config. -/
def Obligations.OnlyTheToggleClearRemovesContent : Prop :=
  ∀ (i : Instr) (s t : State), exec i s = .next t →
    (t.station.pi = s.station.pi ∨ t.station.pi = (instrCommon i).pi) ∧
    (t.station.pty = s.station.pty ∨ t.station.pty = (instrCommon i).pty) ∧
    (t.station.tp = s.station.tp ∨ t.station.tp = (instrCommon i).tp) ∧
    (∃ di, (di = (encode i).b.getLsbD 3 ∨ di = (encode i).b.getLsbD 2) ∧
      (t.station.diSpty = s.station.diSpty ∨ t.station.diSpty = !di) ∧
      (t.station.diComp = s.station.diComp ∨ t.station.diComp = di.xor Config.diInv1) ∧
      (t.station.diAh = s.station.diAh ∨ t.station.diAh = di.xor Config.diInv2) ∧
      (t.station.diSt = s.station.diSt ∨ t.station.diSt = di)) ∧
    (∀ j : Fin 8, t.station.ps[j] = s.station.ps[j] ∨ ∃ c ∈ charCodes i, t.station.ps[j] = charRom c) ∧
    (∀ j : Fin 64, t.station.rt[j] = s.station.rt[j] ∨ (∃ c ∈ charCodes i, t.station.rt[j] = charRom c) ∨
      (t.station.rt[j] = blank ∧ ∃ ab, toggleOf i = some ab ∧ ab ≠ s.station.rtAb)) ∧
    (∀ c, afHas s.station c = true → afHas t.station c = true) ∧
    (∀ g, seenHas s.station g = true → seenHas t.station g = true)

/-- A group decoded twice leaves the state it left once, accepted or rejected (R65, which the spec derives). -/
def Obligations.DecodingTwiceIsDecodingOnce : Prop :=
  ∀ (i : Instr) (s t : State), exec i s = .next t → exec i t = .next t

/-- Every step keeps: each PS and RT cell holds BLANK or a value of CHAR_ROM (R37, which the spec derives). -/
def Obligations.StepKeepsCellsRenderable : Prop :=
  ∀ s t : State, CellsRenderable s.station → step s = .next t → CellsRenderable t.station

/-- The cells are BLANK, so renderable, right after reset (R37, which the spec derives). -/
def Obligations.ResetCellsRenderable : Prop := CellsRenderable State.reset.station

/-- Every step but RESET keeps, for the draw v of INIT that the station started from: what no accepted group has written
since the last reset still holds that reset's values. RESET starts again from a draw of its own. (R35 and R36, which the
spec derives. The model's own: INIT is drawn by a counter, log entry 3; RT_AB is 0 after reset, decision D13, log entry 9;
the moves come from a queue, log entry 1.) -/
def Obligations.StepKeepsHistory : Prop :=
  ∀ (s t : State) (v : InitValues), HistoryFits v s.station → step s = .next t →
    (s.pending.head? ≠ some .rst → HistoryFits v t.station) ∧
    (s.pending.head? = some .rst → ∃ n, HistoryFits (Config.init n) t.station)

/-- Right after reset the station fits a draw of INIT (the draw is the model's, log entry 3; so is RT_AB = 0, decision
D13, log entry 9). -/
def Obligations.ResetHistory : Prop := ∃ n, HistoryFits (Config.init n) State.reset.station

/-- After any group SEEN is empty exactly if it was empty and the group was rejected, and RESET empties it: so SEEN is
not empty exactly when a group has been accepted since the last reset (R36, which the spec derives). -/
def Obligations.SeenTellsWhetherAGroupWasAccepted : Prop :=
  (∀ (i : Instr) (s t : State), exec i s = .next t →
    (t.station.seen = 0#16 ↔ s.station.seen = 0#16 ∧ passes i = false)) ∧
  (∀ (s t : State) (rest : List HostMove), s.pending = .rst :: rest → step s = .next t → t.station.seen = 0#16)

/-- While RT is blank RT_AB cannot be observed: two states that differ in nothing else stay so under every step, or come
to agree, and every read port shows the same in both (R35, which the spec derives; that the step takes moves from a queue
is log entry 1). -/
def Obligations.BlankTextHidesTheStoredToggle : Prop :=
  ∀ s t : State, SameButBlankToggle s t →
    PortsAgree s t ∧ ∃ s' t', step s = .next s' ∧ step t = .next t' ∧ SameButBlankToggle s' t' ∧ PortsAgree s' t'

/-- The bits a route ignores have no effect (R90, decision D24, log entry 20): B[4] and the non-DI bit of a group 0, which
of B[3] and B[2] that is being OPEN (decision D5, log entry 5); block C and its level in G0B and G2B; B[4:0], blocks C and
D and their levels in every other group. -/
def Obligations.IgnoredBitsHaveNoEffect : Prop :=
  (∀ (k : Common) (p p' : PsHeader) (af1 af2 c1 c2 : Code) (s : State), p.addr = p'.addr → diBitOf p = diBitOf p' →
    exec (.g0a k p af1 af2 c1 c2) s = exec (.g0a k p' af1 af2 c1 c2) s) ∧
  (∀ (k : Common) (p p' : PsHeader) (blkC blkC' : Block) (c1 c2 : Code) (q : Level) (s : State),
    p.addr = p'.addr → diBitOf p = diBitOf p' →
    exec (.g0b k p blkC c1 c2) s = exec (.g0b { k with qc := q } p' blkC' c1 c2) s) ∧
  (∀ (k : Common) (r : RtHeader) (blkC blkC' : Block) (c1 c2 : Code) (q : Level) (s : State),
    exec (.g2b k r blkC c1 c2) s = exec (.g2b { k with qc := q } r blkC' c1 c2) s) ∧
  (∀ f ∈ noRouteForms, ∀ (k : Common) (x x' : BitVec 5) (blkC blkC' blkD blkD' : Block) (q q' : Level) (s : State),
    exec (f.1 k x blkC blkD) s = exec (f.1 { k with qc := q, qd := q' } x' blkC' blkD') s)

/-! ### Read ports -/

/-- R226: the PS port returns all 8 cells in index order, in every state. -/
def Obligations.PsPortReturnsEightCells : Prop :=
  ∀ s : State, (portPs s).length = 8 ∧ ∀ j : Fin 8, (portPs s)[j.val]? = some s.station.ps[j]

/-- R227: the RT port returns all 64 cells in index order, in every state. -/
def Obligations.RtPortReturnsSixtyFourCells : Prop :=
  ∀ s : State, (portRt s).length = 64 ∧ ∀ j : Fin 64, (portRt s)[j.val]? = some s.station.rt[j]

/-- R228: the AF port lists F100 of every code in the set, ascending and so without duplicates, between 0 and 203
entries, each presented also as F100/10 MHz with one decimal. -/
def Obligations.AfPortListsTheSetAscending : Prop :=
  ∀ s : State,
    (∀ f, f ∈ portAf s ↔ ∃ c, 1 ≤ c ∧ c ≤ 203 ∧ afHas s.station c = true ∧ f = 875 + c) ∧
    (portAf s).Pairwise (· < ·) ∧ (portAf s).Nodup ∧ (portAf s).length ≤ 203 ∧
    portAfMhz s = (portAf s).map (fun f => ⟨f / 10, f % 10⟩)

/-- R229: the SEEN port returns the set of group types whose bit is set, each once. -/
def Obligations.SeenPortReturnsTheTypesSeen : Prop :=
  ∀ s : State, (portSeen s).Nodup ∧
    ∀ g, g ∈ portSeen s ↔ ∃ t : BitVec 4, g = t.toNat ∧ seenHas s.station t = true

/-- The remaining ports: PI, PTY, TP and the DI flags return the registers, NAME the table's entry or the empty string,
PTY_LABEL the configured region's label, ACCEPT the last result. The tables are OPEN (decision D20, log entry 7); ACCEPT
is the model's field (log entry 2). -/
def Obligations.ScalarPortsReturnTheirRegisters : Prop :=
  ∀ s : State,
    portPi s = s.station.pi ∧ portPty s = s.station.pty ∧ portTp s = s.station.tp ∧
    portDiSpty s = s.station.diSpty ∧ portDiComp s = s.station.diComp ∧ portDiAh s = s.station.diAh ∧
    portDiSt s = s.station.diSt ∧
    portName s = (match Config.piNames s.station.pi with
      | some name => name
      | none => "") ∧
    portPtyLabel s = Config.ptyLabels Config.region s.station.pty ∧ portAccept s = s.accept
end

