-- ==== Sys2Proof/Laws/Decode.lean ====
section
/-! SUPPORT. The fields of an assembled block, one lemma per field, for proofs about decoding and encoding. -/

namespace Sys2Proof.Laws

/-! ### Bytes of a block -/

theorem getLsbD_blockOf (hi lo : Code) (i : Nat) :
    (blockOf hi lo).getLsbD i = if i < 8 then lo.getLsbD i else hi.getLsbD (i - 8) := by
  show (hi ++ lo : BitVec (8 + 8)).getLsbD i = _
  rw [BitVec.getLsbD_append]

theorem hiByte_blockOf (hi lo : Code) : hiByte (blockOf hi lo) = hi := by
  apply BitVec.eq_of_getLsbD_eq
  intro i hi'
  rw [hiByte, BitVec.getLsbD_extractLsb', getLsbD_blockOf, if_neg (by omega), Nat.add_sub_cancel_left]
  simp [hi']

theorem loByte_blockOf (hi lo : Code) : loByte (blockOf hi lo) = lo := by
  apply BitVec.eq_of_getLsbD_eq
  intro i hi'
  rw [loByte, BitVec.getLsbD_extractLsb', getLsbD_blockOf, Nat.zero_add, if_pos hi']
  simp [hi']

theorem blockOf_hiByte_loByte (x : Block) : blockOf (hiByte x) (loByte x) = x := by
  apply BitVec.eq_of_getLsbD_eq
  intro i hi
  rw [getLsbD_blockOf]
  by_cases h : i < 8
  · rw [if_pos h, loByte, BitVec.getLsbD_extractLsb', Nat.zero_add]
    simp [h]
  · rw [if_neg h, hiByte, BitVec.getLsbD_extractLsb', Nat.add_sub_cancel' (by omega)]
    simp [show i - 8 < 8 by omega]

/-! ### Fields of block B -/

theorem getLsbD_blockB (gt : BitVec 4) (ver tp : Bool) (pty low : BitVec 5) (i : Nat) :
    (blockB gt ver tp pty low).getLsbD i =
      if i < 5 then low.getLsbD i
      else if i < 10 then pty.getLsbD (i - 5)
      else if i = 10 then tp
      else if i = 11 then ver
      else gt.getLsbD (i - 12) := by
  show (gt ++ BitVec.ofBool ver ++ BitVec.ofBool tp ++ pty ++ low : BitVec (4 + 1 + 1 + 5 + 5)).getLsbD i = _
  simp only [BitVec.getLsbD_append, BitVec.getLsbD_ofBool]
  by_cases h5 : i < 5
  · rw [if_pos h5, if_pos h5]
  · rw [if_neg h5, if_neg h5]
    by_cases h10 : i < 10
    · rw [if_pos (show i - 5 < 5 by omega), if_pos h10]
    · rw [if_neg (show ¬ i - 5 < 5 by omega), if_neg h10]
      by_cases e10 : i = 10
      · subst e10
        simp
      · rw [if_neg (show ¬ i - 5 - 5 < 1 by omega), if_neg e10]
        by_cases e11 : i = 11
        · subst e11
          simp
        · rw [if_neg (show ¬ i - 5 - 5 - 1 < 1 by omega), if_neg e11, show i - 5 - 5 - 1 - 1 = i - 12 by omega]

theorem groupTypeBits_blockB (gt : BitVec 4) (ver tp : Bool) (pty low : BitVec 5) :
    groupTypeBits (blockB gt ver tp pty low) = gt := by
  apply BitVec.eq_of_getLsbD_eq
  intro i hi
  rw [groupTypeBits, BitVec.getLsbD_extractLsb', getLsbD_blockB, if_neg (by omega), if_neg (by omega),
    if_neg (by omega), if_neg (by omega), Nat.add_sub_cancel_left]
  simp [hi]

theorem versionBit_blockB (gt : BitVec 4) (ver tp : Bool) (pty low : BitVec 5) :
    versionBit (blockB gt ver tp pty low) = ver := by
  rw [versionBit, getLsbD_blockB]
  rfl

theorem tpBit_blockB (gt : BitVec 4) (ver tp : Bool) (pty low : BitVec 5) :
    tpBit (blockB gt ver tp pty low) = tp := by
  rw [tpBit, getLsbD_blockB]
  rfl

theorem ptyBits_blockB (gt : BitVec 4) (ver tp : Bool) (pty low : BitVec 5) :
    ptyBits (blockB gt ver tp pty low) = pty := by
  apply BitVec.eq_of_getLsbD_eq
  intro i hi
  rw [ptyBits, BitVec.getLsbD_extractLsb', getLsbD_blockB, if_neg (by omega), if_pos (by omega),
    Nat.add_sub_cancel_left]
  simp [hi]

theorem lowBits_blockB (gt : BitVec 4) (ver tp : Bool) (pty low : BitVec 5) :
    lowBits (blockB gt ver tp pty low) = low := by
  apply BitVec.eq_of_getLsbD_eq
  intro i hi
  rw [lowBits, BitVec.getLsbD_extractLsb', getLsbD_blockB, if_pos (by omega), Nat.zero_add]
  simp [hi]

theorem topBits_blockB (gt : BitVec 4) (ver tp : Bool) (pty low : BitVec 5) :
    (blockB gt ver tp pty low).extractLsb' 11 5 = gt ++ BitVec.ofBool ver := by
  apply BitVec.eq_of_getLsbD_eq
  intro i hi
  rw [BitVec.getLsbD_extractLsb', getLsbD_blockB, BitVec.getLsbD_append, if_neg (by omega), if_neg (by omega),
    if_neg (by omega)]
  by_cases h : i = 0
  · subst h
    simp
  · rw [if_neg (by omega), if_neg (by omega), show 11 + i - 12 = i - 1 by omega]
    simp [hi]

/-- A block is its own fields put together. -/
theorem blockB_fields (b : Block) :
    blockB (groupTypeBits b) (versionBit b) (tpBit b) (ptyBits b) (lowBits b) = b := by
  apply BitVec.eq_of_getLsbD_eq
  intro i hi
  rw [getLsbD_blockB]
  simp only [groupTypeBits, versionBit, tpBit, ptyBits, lowBits, BitVec.getLsbD_extractLsb', Nat.zero_add]
  split
  · simp [*]
  · split
    · simp [show i - 5 < 5 by omega, show 5 + (i - 5) = i by omega]
    · split
      · simp [*]
      · split
        · simp [*]
        · simp [show i - 12 < 4 by omega, show 12 + (i - 12) = i by omega]

/-! ### Block B's low five bits -/

theorem getLsbD_psLow (p : PsHeader) (i : Nat) :
    (psLow p).getLsbD i =
      if i < 2 then p.addr.getLsbD i
      else if i = 2 then p.b2
      else if i = 3 then p.b3
      else decide (i = 4) && p.b4 := by
  show (BitVec.ofBool p.b4 ++ BitVec.ofBool p.b3 ++ BitVec.ofBool p.b2 ++ p.addr : BitVec (1 + 1 + 1 + 2)).getLsbD i = _
  simp only [BitVec.getLsbD_append, BitVec.getLsbD_ofBool]
  by_cases h2 : i < 2
  · rw [if_pos h2, if_pos h2]
  · rw [if_neg h2, if_neg h2]
    by_cases e2 : i = 2
    · subst e2
      simp
    · rw [if_neg (show ¬ i - 2 < 1 by omega), if_neg e2]
      by_cases e3 : i = 3
      · subst e3
        simp
      · rw [if_neg (show ¬ i - 2 - 1 < 1 by omega), if_neg e3,
          decide_eq_decide.2 (show i - 2 - 1 - 1 = 0 ↔ i = 4 by omega)]

theorem psHeader_psLow (p : PsHeader) : psHeader (psLow p) = p := by
  have ha : (psLow p).extractLsb' 0 2 = p.addr := by
    apply BitVec.eq_of_getLsbD_eq
    intro i hi
    rw [BitVec.getLsbD_extractLsb', getLsbD_psLow, if_pos (by omega), Nat.zero_add]
    simp [hi]
  rw [psHeader, ha, getLsbD_psLow, getLsbD_psLow, getLsbD_psLow]
  simp

theorem psLow_psHeader (x : BitVec 5) : psLow (psHeader x) = x := by
  apply BitVec.eq_of_getLsbD_eq
  intro i hi
  rw [getLsbD_psLow]
  simp only [psHeader, BitVec.getLsbD_extractLsb', Nat.zero_add]
  split
  · simp [*]
  · split
    · simp [*]
    · split
      · simp [*]
      · simp [show i = 4 by omega]

theorem getLsbD_rtLow (r : RtHeader) (i : Nat) :
    (rtLow r).getLsbD i = if i < 4 then r.seg.getLsbD i else decide (i = 4) && r.ab := by
  show (BitVec.ofBool r.ab ++ r.seg : BitVec (1 + 4)).getLsbD i = _
  simp only [BitVec.getLsbD_append, BitVec.getLsbD_ofBool]
  split
  · rfl
  · rw [decide_eq_decide.2 (show i - 4 = 0 ↔ i = 4 by omega)]

theorem rtHeader_rtLow (r : RtHeader) : rtHeader (rtLow r) = r := by
  have hs : (rtLow r).extractLsb' 0 4 = r.seg := by
    apply BitVec.eq_of_getLsbD_eq
    intro i hi
    rw [BitVec.getLsbD_extractLsb', getLsbD_rtLow, if_pos (by omega), Nat.zero_add]
    simp [hi]
  rw [rtHeader, hs, getLsbD_rtLow]
  simp

theorem rtLow_rtHeader (x : BitVec 5) : rtLow (rtHeader x) = x := by
  apply BitVec.eq_of_getLsbD_eq
  intro i hi
  rw [getLsbD_rtLow]
  simp only [rtHeader, BitVec.getLsbD_extractLsb', Nat.zero_add]
  split
  · simp [*]
  · simp [show i = 4 by omega]

/-! ### Groups -/

theorem commonOf_groupOf (gt : BitVec 4) (ver : Bool) (k : Common) (low : BitVec 5) (c d : Block) :
    commonOf (groupOf gt ver k low c d) = k := by
  obtain ⟨pi, tp, pty, qa, qb, qc, qd⟩ := k
  simp [commonOf, groupOf, tpBit_blockB, ptyBits_blockB]

end Sys2Proof.Laws
end

