-- ==== Sys2Proof/Laws/State.lean ====
section
/-! SUPPORT. What each named update of the station state does to each field, so that no proof unfolds an update. -/

namespace Sys2Proof.Laws

open Sys2Proof.Machine

/-! ### writeCommon -/

@[simp] theorem writeCommon_pi (k : Common) (st : Station) : (writeCommon k st).pi = k.pi := rfl
@[simp] theorem writeCommon_pty (k : Common) (st : Station) : (writeCommon k st).pty = k.pty := rfl
@[simp] theorem writeCommon_tp (k : Common) (st : Station) : (writeCommon k st).tp = k.tp := rfl
@[simp] theorem writeCommon_diSpty (k : Common) (st : Station) : (writeCommon k st).diSpty = st.diSpty := rfl
@[simp] theorem writeCommon_diComp (k : Common) (st : Station) : (writeCommon k st).diComp = st.diComp := rfl
@[simp] theorem writeCommon_diAh (k : Common) (st : Station) : (writeCommon k st).diAh = st.diAh := rfl
@[simp] theorem writeCommon_diSt (k : Common) (st : Station) : (writeCommon k st).diSt = st.diSt := rfl
@[simp] theorem writeCommon_ps (k : Common) (st : Station) : (writeCommon k st).ps = st.ps := rfl
@[simp] theorem writeCommon_rt (k : Common) (st : Station) : (writeCommon k st).rt = st.rt := rfl
@[simp] theorem writeCommon_rtAb (k : Common) (st : Station) : (writeCommon k st).rtAb = st.rtAb := rfl
@[simp] theorem writeCommon_af (k : Common) (st : Station) : (writeCommon k st).af = st.af := rfl
@[simp] theorem writeCommon_seen (k : Common) (st : Station) : (writeCommon k st).seen = st.seen := rfl

/-! ### psWrite -/

@[simp] theorem psWrite_pi (addr : BitVec 2) (c1 c2 : Code) (st : Station) : (psWrite addr c1 c2 st).pi = st.pi := rfl
@[simp] theorem psWrite_pty (addr : BitVec 2) (c1 c2 : Code) (st : Station) : (psWrite addr c1 c2 st).pty = st.pty := rfl
@[simp] theorem psWrite_tp (addr : BitVec 2) (c1 c2 : Code) (st : Station) : (psWrite addr c1 c2 st).tp = st.tp := rfl
@[simp] theorem psWrite_diSpty (addr : BitVec 2) (c1 c2 : Code) (st : Station) : (psWrite addr c1 c2 st).diSpty = st.diSpty := rfl
@[simp] theorem psWrite_diComp (addr : BitVec 2) (c1 c2 : Code) (st : Station) : (psWrite addr c1 c2 st).diComp = st.diComp := rfl
@[simp] theorem psWrite_diAh (addr : BitVec 2) (c1 c2 : Code) (st : Station) : (psWrite addr c1 c2 st).diAh = st.diAh := rfl
@[simp] theorem psWrite_diSt (addr : BitVec 2) (c1 c2 : Code) (st : Station) : (psWrite addr c1 c2 st).diSt = st.diSt := rfl
@[simp] theorem psWrite_ps (addr : BitVec 2) (c1 c2 : Code) (st : Station) : (psWrite addr c1 c2 st).ps = writeCells st.ps (2 * addr.toNat) [charRom c1, charRom c2] := rfl
@[simp] theorem psWrite_rt (addr : BitVec 2) (c1 c2 : Code) (st : Station) : (psWrite addr c1 c2 st).rt = st.rt := rfl
@[simp] theorem psWrite_rtAb (addr : BitVec 2) (c1 c2 : Code) (st : Station) : (psWrite addr c1 c2 st).rtAb = st.rtAb := rfl
@[simp] theorem psWrite_af (addr : BitVec 2) (c1 c2 : Code) (st : Station) : (psWrite addr c1 c2 st).af = st.af := rfl
@[simp] theorem psWrite_seen (addr : BitVec 2) (c1 c2 : Code) (st : Station) : (psWrite addr c1 c2 st).seen = st.seen := rfl

/-! ### rtWrite -/

@[simp] theorem rtWrite_pi (width : Nat) (seg : BitVec 4) (codes : List Code) (st : Station) : (rtWrite width seg codes st).pi = st.pi := rfl
@[simp] theorem rtWrite_pty (width : Nat) (seg : BitVec 4) (codes : List Code) (st : Station) : (rtWrite width seg codes st).pty = st.pty := rfl
@[simp] theorem rtWrite_tp (width : Nat) (seg : BitVec 4) (codes : List Code) (st : Station) : (rtWrite width seg codes st).tp = st.tp := rfl
@[simp] theorem rtWrite_diSpty (width : Nat) (seg : BitVec 4) (codes : List Code) (st : Station) : (rtWrite width seg codes st).diSpty = st.diSpty := rfl
@[simp] theorem rtWrite_diComp (width : Nat) (seg : BitVec 4) (codes : List Code) (st : Station) : (rtWrite width seg codes st).diComp = st.diComp := rfl
@[simp] theorem rtWrite_diAh (width : Nat) (seg : BitVec 4) (codes : List Code) (st : Station) : (rtWrite width seg codes st).diAh = st.diAh := rfl
@[simp] theorem rtWrite_diSt (width : Nat) (seg : BitVec 4) (codes : List Code) (st : Station) : (rtWrite width seg codes st).diSt = st.diSt := rfl
@[simp] theorem rtWrite_ps (width : Nat) (seg : BitVec 4) (codes : List Code) (st : Station) : (rtWrite width seg codes st).ps = st.ps := rfl
@[simp] theorem rtWrite_rt (width : Nat) (seg : BitVec 4) (codes : List Code) (st : Station) : (rtWrite width seg codes st).rt = writeCells st.rt (width * seg.toNat) (codes.map charRom) := rfl
@[simp] theorem rtWrite_rtAb (width : Nat) (seg : BitVec 4) (codes : List Code) (st : Station) : (rtWrite width seg codes st).rtAb = st.rtAb := rfl
@[simp] theorem rtWrite_af (width : Nat) (seg : BitVec 4) (codes : List Code) (st : Station) : (rtWrite width seg codes st).af = st.af := rfl
@[simp] theorem rtWrite_seen (width : Nat) (seg : BitVec 4) (codes : List Code) (st : Station) : (rtWrite width seg codes st).seen = st.seen := rfl

/-! ### markSeen -/

@[simp] theorem markSeen_pi (gt : BitVec 4) (st : Station) : (markSeen gt st).pi = st.pi := rfl
@[simp] theorem markSeen_pty (gt : BitVec 4) (st : Station) : (markSeen gt st).pty = st.pty := rfl
@[simp] theorem markSeen_tp (gt : BitVec 4) (st : Station) : (markSeen gt st).tp = st.tp := rfl
@[simp] theorem markSeen_diSpty (gt : BitVec 4) (st : Station) : (markSeen gt st).diSpty = st.diSpty := rfl
@[simp] theorem markSeen_diComp (gt : BitVec 4) (st : Station) : (markSeen gt st).diComp = st.diComp := rfl
@[simp] theorem markSeen_diAh (gt : BitVec 4) (st : Station) : (markSeen gt st).diAh = st.diAh := rfl
@[simp] theorem markSeen_diSt (gt : BitVec 4) (st : Station) : (markSeen gt st).diSt = st.diSt := rfl
@[simp] theorem markSeen_ps (gt : BitVec 4) (st : Station) : (markSeen gt st).ps = st.ps := rfl
@[simp] theorem markSeen_rt (gt : BitVec 4) (st : Station) : (markSeen gt st).rt = st.rt := rfl
@[simp] theorem markSeen_rtAb (gt : BitVec 4) (st : Station) : (markSeen gt st).rtAb = st.rtAb := rfl
@[simp] theorem markSeen_af (gt : BitVec 4) (st : Station) : (markSeen gt st).af = st.af := rfl
@[simp] theorem markSeen_seen (gt : BitVec 4) (st : Station) : (markSeen gt st).seen = st.seen ||| BitVec.twoPow 16 gt.toNat := rfl

/-! ### writeDi -/

/-- A sub-address is one of four. -/
theorem addr_cases (addr : BitVec 2) : addr = 0#2 ∨ addr = 1#2 ∨ addr = 2#2 ∨ addr = 3#2 := by
  revert addr
  decide

@[simp] theorem writeDi_pi (addr : BitVec 2) (v : Bool) (st : Station) : (writeDi addr v st).pi = st.pi := by
  obtain rfl | rfl | rfl | rfl := addr_cases addr <;> rfl
@[simp] theorem writeDi_pty (addr : BitVec 2) (v : Bool) (st : Station) : (writeDi addr v st).pty = st.pty := by
  obtain rfl | rfl | rfl | rfl := addr_cases addr <;> rfl
@[simp] theorem writeDi_tp (addr : BitVec 2) (v : Bool) (st : Station) : (writeDi addr v st).tp = st.tp := by
  obtain rfl | rfl | rfl | rfl := addr_cases addr <;> rfl
@[simp] theorem writeDi_diSpty (addr : BitVec 2) (v : Bool) (st : Station) : (writeDi addr v st).diSpty = if addr = 0#2 then v else st.diSpty := by
  obtain rfl | rfl | rfl | rfl := addr_cases addr <;> rfl
@[simp] theorem writeDi_diComp (addr : BitVec 2) (v : Bool) (st : Station) : (writeDi addr v st).diComp = if addr = 1#2 then v else st.diComp := by
  obtain rfl | rfl | rfl | rfl := addr_cases addr <;> rfl
@[simp] theorem writeDi_diAh (addr : BitVec 2) (v : Bool) (st : Station) : (writeDi addr v st).diAh = if addr = 2#2 then v else st.diAh := by
  obtain rfl | rfl | rfl | rfl := addr_cases addr <;> rfl
@[simp] theorem writeDi_diSt (addr : BitVec 2) (v : Bool) (st : Station) : (writeDi addr v st).diSt = if addr = 3#2 then v else st.diSt := by
  obtain rfl | rfl | rfl | rfl := addr_cases addr <;> rfl
@[simp] theorem writeDi_ps (addr : BitVec 2) (v : Bool) (st : Station) : (writeDi addr v st).ps = st.ps := by
  obtain rfl | rfl | rfl | rfl := addr_cases addr <;> rfl
@[simp] theorem writeDi_rt (addr : BitVec 2) (v : Bool) (st : Station) : (writeDi addr v st).rt = st.rt := by
  obtain rfl | rfl | rfl | rfl := addr_cases addr <;> rfl
@[simp] theorem writeDi_rtAb (addr : BitVec 2) (v : Bool) (st : Station) : (writeDi addr v st).rtAb = st.rtAb := by
  obtain rfl | rfl | rfl | rfl := addr_cases addr <;> rfl
@[simp] theorem writeDi_af (addr : BitVec 2) (v : Bool) (st : Station) : (writeDi addr v st).af = st.af := by
  obtain rfl | rfl | rfl | rfl := addr_cases addr <;> rfl
@[simp] theorem writeDi_seen (addr : BitVec 2) (v : Bool) (st : Station) : (writeDi addr v st).seen = st.seen := by
  obtain rfl | rfl | rfl | rfl := addr_cases addr <;> rfl

/-! ### abCheck -/

@[simp] theorem abCheck_pi (ab : Bool) (st : Station) : (abCheck ab st).pi = st.pi := by
  unfold abCheck
  split <;> rfl
@[simp] theorem abCheck_pty (ab : Bool) (st : Station) : (abCheck ab st).pty = st.pty := by
  unfold abCheck
  split <;> rfl
@[simp] theorem abCheck_tp (ab : Bool) (st : Station) : (abCheck ab st).tp = st.tp := by
  unfold abCheck
  split <;> rfl
@[simp] theorem abCheck_diSpty (ab : Bool) (st : Station) : (abCheck ab st).diSpty = st.diSpty := by
  unfold abCheck
  split <;> rfl
@[simp] theorem abCheck_diComp (ab : Bool) (st : Station) : (abCheck ab st).diComp = st.diComp := by
  unfold abCheck
  split <;> rfl
@[simp] theorem abCheck_diAh (ab : Bool) (st : Station) : (abCheck ab st).diAh = st.diAh := by
  unfold abCheck
  split <;> rfl
@[simp] theorem abCheck_diSt (ab : Bool) (st : Station) : (abCheck ab st).diSt = st.diSt := by
  unfold abCheck
  split <;> rfl
@[simp] theorem abCheck_ps (ab : Bool) (st : Station) : (abCheck ab st).ps = st.ps := by
  unfold abCheck
  split <;> rfl
@[simp] theorem abCheck_rt (ab : Bool) (st : Station) : (abCheck ab st).rt = if ab = st.rtAb then st.rt else Vector.replicate 64 blank := by
  unfold abCheck
  split <;> simp_all
@[simp] theorem abCheck_rtAb (ab : Bool) (st : Station) : (abCheck ab st).rtAb = ab := by
  unfold abCheck
  split <;> simp_all
@[simp] theorem abCheck_af (ab : Bool) (st : Station) : (abCheck ab st).af = st.af := by
  unfold abCheck
  split <;> rfl
@[simp] theorem abCheck_seen (ab : Bool) (st : Station) : (abCheck ab st).seen = st.seen := by
  unfold abCheck
  split <;> rfl

/-! ### afFeed -/

@[simp] theorem afFeed_pi (c : Code) (st : Station) : (afFeed c st).pi = st.pi := by
  unfold afFeed
  split <;> rfl
@[simp] theorem afFeed_pty (c : Code) (st : Station) : (afFeed c st).pty = st.pty := by
  unfold afFeed
  split <;> rfl
@[simp] theorem afFeed_tp (c : Code) (st : Station) : (afFeed c st).tp = st.tp := by
  unfold afFeed
  split <;> rfl
@[simp] theorem afFeed_diSpty (c : Code) (st : Station) : (afFeed c st).diSpty = st.diSpty := by
  unfold afFeed
  split <;> rfl
@[simp] theorem afFeed_diComp (c : Code) (st : Station) : (afFeed c st).diComp = st.diComp := by
  unfold afFeed
  split <;> rfl
@[simp] theorem afFeed_diAh (c : Code) (st : Station) : (afFeed c st).diAh = st.diAh := by
  unfold afFeed
  split <;> rfl
@[simp] theorem afFeed_diSt (c : Code) (st : Station) : (afFeed c st).diSt = st.diSt := by
  unfold afFeed
  split <;> rfl
@[simp] theorem afFeed_ps (c : Code) (st : Station) : (afFeed c st).ps = st.ps := by
  unfold afFeed
  split <;> rfl
@[simp] theorem afFeed_rt (c : Code) (st : Station) : (afFeed c st).rt = st.rt := by
  unfold afFeed
  split <;> rfl
@[simp] theorem afFeed_rtAb (c : Code) (st : Station) : (afFeed c st).rtAb = st.rtAb := by
  unfold afFeed
  split <;> rfl
@[simp] theorem afFeed_af (c : Code) (st : Station) : (afFeed c st).af = if afValid c then st.af ||| BitVec.twoPow 203 (c.toNat - 1) else st.af := by
  unfold afFeed
  split <;> rfl
@[simp] theorem afFeed_seen (c : Code) (st : Station) : (afFeed c st).seen = st.seen := by
  unfold afFeed
  split <;> rfl

/-! ### diUpdate -/

@[simp] theorem diUpdate_pi (p : PsHeader) (st : Station) : (diUpdate p st).pi = st.pi := by
  simp [diUpdate]
@[simp] theorem diUpdate_pty (p : PsHeader) (st : Station) : (diUpdate p st).pty = st.pty := by
  simp [diUpdate]
@[simp] theorem diUpdate_tp (p : PsHeader) (st : Station) : (diUpdate p st).tp = st.tp := by
  simp [diUpdate]
@[simp] theorem diUpdate_ps (p : PsHeader) (st : Station) : (diUpdate p st).ps = st.ps := by
  simp [diUpdate]
@[simp] theorem diUpdate_rt (p : PsHeader) (st : Station) : (diUpdate p st).rt = st.rt := by
  simp [diUpdate]
@[simp] theorem diUpdate_rtAb (p : PsHeader) (st : Station) : (diUpdate p st).rtAb = st.rtAb := by
  simp [diUpdate]
@[simp] theorem diUpdate_af (p : PsHeader) (st : Station) : (diUpdate p st).af = st.af := by
  simp [diUpdate]
@[simp] theorem diUpdate_seen (p : PsHeader) (st : Station) : (diUpdate p st).seen = st.seen := by
  simp [diUpdate]

/-! ### psRoute -/

@[simp] theorem psRoute_pi (p : PsHeader) (c1 c2 : Code) (st : Station) : (psRoute p c1 c2 st).pi = st.pi := by
  simp [psRoute]
@[simp] theorem psRoute_pty (p : PsHeader) (c1 c2 : Code) (st : Station) : (psRoute p c1 c2 st).pty = st.pty := by
  simp [psRoute]
@[simp] theorem psRoute_tp (p : PsHeader) (c1 c2 : Code) (st : Station) : (psRoute p c1 c2 st).tp = st.tp := by
  simp [psRoute]
@[simp] theorem psRoute_rt (p : PsHeader) (c1 c2 : Code) (st : Station) : (psRoute p c1 c2 st).rt = st.rt := by
  simp [psRoute]
@[simp] theorem psRoute_rtAb (p : PsHeader) (c1 c2 : Code) (st : Station) : (psRoute p c1 c2 st).rtAb = st.rtAb := by
  simp [psRoute]
@[simp] theorem psRoute_af (p : PsHeader) (c1 c2 : Code) (st : Station) : (psRoute p c1 c2 st).af = st.af := by
  simp [psRoute]
@[simp] theorem psRoute_seen (p : PsHeader) (c1 c2 : Code) (st : Station) : (psRoute p c1 c2 st).seen = st.seen := by
  simp [psRoute]

/-! ### afRoute -/

@[simp] theorem afRoute_pi (af1 af2 : Code) (st : Station) : (afRoute af1 af2 st).pi = st.pi := by
  simp [afRoute]
@[simp] theorem afRoute_pty (af1 af2 : Code) (st : Station) : (afRoute af1 af2 st).pty = st.pty := by
  simp [afRoute]
@[simp] theorem afRoute_tp (af1 af2 : Code) (st : Station) : (afRoute af1 af2 st).tp = st.tp := by
  simp [afRoute]
@[simp] theorem afRoute_diSpty (af1 af2 : Code) (st : Station) : (afRoute af1 af2 st).diSpty = st.diSpty := by
  simp [afRoute]
@[simp] theorem afRoute_diComp (af1 af2 : Code) (st : Station) : (afRoute af1 af2 st).diComp = st.diComp := by
  simp [afRoute]
@[simp] theorem afRoute_diAh (af1 af2 : Code) (st : Station) : (afRoute af1 af2 st).diAh = st.diAh := by
  simp [afRoute]
@[simp] theorem afRoute_diSt (af1 af2 : Code) (st : Station) : (afRoute af1 af2 st).diSt = st.diSt := by
  simp [afRoute]
@[simp] theorem afRoute_ps (af1 af2 : Code) (st : Station) : (afRoute af1 af2 st).ps = st.ps := by
  simp [afRoute]
@[simp] theorem afRoute_rt (af1 af2 : Code) (st : Station) : (afRoute af1 af2 st).rt = st.rt := by
  simp [afRoute]
@[simp] theorem afRoute_rtAb (af1 af2 : Code) (st : Station) : (afRoute af1 af2 st).rtAb = st.rtAb := by
  simp [afRoute]
@[simp] theorem afRoute_seen (af1 af2 : Code) (st : Station) : (afRoute af1 af2 st).seen = st.seen := by
  simp [afRoute]

/-! ### rtRouteA -/

@[simp] theorem rtRouteA_pi (r : RtHeader) (c1 c2 c3 c4 : Code) (st : Station) : (rtRouteA r c1 c2 c3 c4 st).pi = st.pi := by
  simp [rtRouteA]
@[simp] theorem rtRouteA_pty (r : RtHeader) (c1 c2 c3 c4 : Code) (st : Station) : (rtRouteA r c1 c2 c3 c4 st).pty = st.pty := by
  simp [rtRouteA]
@[simp] theorem rtRouteA_tp (r : RtHeader) (c1 c2 c3 c4 : Code) (st : Station) : (rtRouteA r c1 c2 c3 c4 st).tp = st.tp := by
  simp [rtRouteA]
@[simp] theorem rtRouteA_diSpty (r : RtHeader) (c1 c2 c3 c4 : Code) (st : Station) : (rtRouteA r c1 c2 c3 c4 st).diSpty = st.diSpty := by
  simp [rtRouteA]
@[simp] theorem rtRouteA_diComp (r : RtHeader) (c1 c2 c3 c4 : Code) (st : Station) : (rtRouteA r c1 c2 c3 c4 st).diComp = st.diComp := by
  simp [rtRouteA]
@[simp] theorem rtRouteA_diAh (r : RtHeader) (c1 c2 c3 c4 : Code) (st : Station) : (rtRouteA r c1 c2 c3 c4 st).diAh = st.diAh := by
  simp [rtRouteA]
@[simp] theorem rtRouteA_diSt (r : RtHeader) (c1 c2 c3 c4 : Code) (st : Station) : (rtRouteA r c1 c2 c3 c4 st).diSt = st.diSt := by
  simp [rtRouteA]
@[simp] theorem rtRouteA_ps (r : RtHeader) (c1 c2 c3 c4 : Code) (st : Station) : (rtRouteA r c1 c2 c3 c4 st).ps = st.ps := by
  simp [rtRouteA]
@[simp] theorem rtRouteA_af (r : RtHeader) (c1 c2 c3 c4 : Code) (st : Station) : (rtRouteA r c1 c2 c3 c4 st).af = st.af := by
  simp [rtRouteA]
@[simp] theorem rtRouteA_seen (r : RtHeader) (c1 c2 c3 c4 : Code) (st : Station) : (rtRouteA r c1 c2 c3 c4 st).seen = st.seen := by
  simp [rtRouteA]
@[simp] theorem rtRouteA_rtAb (r : RtHeader) (c1 c2 c3 c4 : Code) (st : Station) : (rtRouteA r c1 c2 c3 c4 st).rtAb = r.ab := by
  simp [rtRouteA]

/-! ### rtRouteB -/

@[simp] theorem rtRouteB_pi (r : RtHeader) (c1 c2 : Code) (st : Station) : (rtRouteB r c1 c2 st).pi = st.pi := by
  simp [rtRouteB]
@[simp] theorem rtRouteB_pty (r : RtHeader) (c1 c2 : Code) (st : Station) : (rtRouteB r c1 c2 st).pty = st.pty := by
  simp [rtRouteB]
@[simp] theorem rtRouteB_tp (r : RtHeader) (c1 c2 : Code) (st : Station) : (rtRouteB r c1 c2 st).tp = st.tp := by
  simp [rtRouteB]
@[simp] theorem rtRouteB_diSpty (r : RtHeader) (c1 c2 : Code) (st : Station) : (rtRouteB r c1 c2 st).diSpty = st.diSpty := by
  simp [rtRouteB]
@[simp] theorem rtRouteB_diComp (r : RtHeader) (c1 c2 : Code) (st : Station) : (rtRouteB r c1 c2 st).diComp = st.diComp := by
  simp [rtRouteB]
@[simp] theorem rtRouteB_diAh (r : RtHeader) (c1 c2 : Code) (st : Station) : (rtRouteB r c1 c2 st).diAh = st.diAh := by
  simp [rtRouteB]
@[simp] theorem rtRouteB_diSt (r : RtHeader) (c1 c2 : Code) (st : Station) : (rtRouteB r c1 c2 st).diSt = st.diSt := by
  simp [rtRouteB]
@[simp] theorem rtRouteB_ps (r : RtHeader) (c1 c2 : Code) (st : Station) : (rtRouteB r c1 c2 st).ps = st.ps := by
  simp [rtRouteB]
@[simp] theorem rtRouteB_af (r : RtHeader) (c1 c2 : Code) (st : Station) : (rtRouteB r c1 c2 st).af = st.af := by
  simp [rtRouteB]
@[simp] theorem rtRouteB_seen (r : RtHeader) (c1 c2 : Code) (st : Station) : (rtRouteB r c1 c2 st).seen = st.seen := by
  simp [rtRouteB]
@[simp] theorem rtRouteB_rtAb (r : RtHeader) (c1 c2 : Code) (st : Station) : (rtRouteB r c1 c2 st).rtAb = r.ab := by
  simp [rtRouteB]

/-! ### The moves of the host -/

@[simp] theorem resetStep_station (s : State) : (resetStep s).station = freshStation (Config.init s.initDraws) := rfl
@[simp] theorem resetStep_accept (s : State) : (resetStep s).accept = s.accept := rfl
@[simp] theorem resetStep_pending (s : State) : (resetStep s).pending = s.pending := rfl
@[simp] theorem resetStep_initDraws (s : State) : (resetStep s).initDraws = s.initDraws + 1 := rfl

@[simp] theorem presentNext_station (g : Group) (s : State) : (presentNext g s).station = s.station := rfl
@[simp] theorem presentNext_accept (g : Group) (s : State) : (presentNext g s).accept = s.accept := rfl
@[simp] theorem presentNext_pending (g : Group) (s : State) : (presentNext g s).pending = .grp g :: s.pending := rfl
@[simp] theorem presentNext_initDraws (g : Group) (s : State) : (presentNext g s).initDraws = s.initDraws := rfl

end Sys2Proof.Laws
end

