-- ==== Sys2Proof/Laws/Ops.lean ====
section
/-! SUPPORT. One lemma for each shared operation, saying everything it can do: later proofs cite these and do not unfold
the operations. -/

namespace Sys2Proof.Laws

open Sys2Proof.Machine

/-! ### Cells -/

/-- Writing characters from `start` on: cell j holds the character that falls on it, and otherwise what it held. -/
theorem writeCells_getElem {n : Nat} (cs : List DisplayChar) (buf : Vector DisplayChar n) (start j : Nat)
    (hj : j < n) :
    (writeCells buf start cs)[j] =
      if h : start ≤ j ∧ j < start + cs.length then cs[j - start] else buf[j] := by
  induction cs generalizing buf start with
  | nil =>
    rw [dif_neg (by simp)]
    rfl
  | cons c cs ih =>
    rw [writeCells, ih]
    by_cases h : start + 1 ≤ j ∧ j < start + 1 + cs.length
    · have e : j - start = (j - (start + 1)) + 1 := by omega
      have h' : start ≤ j ∧ j < start + (c :: cs).length := by simp; omega
      rw [dif_pos h, dif_pos h']
      simp [e]
    · rw [dif_neg h, Vector.getElem_setIfInBounds]
      by_cases hs : start = j
      · subst hs
        simp
      · have h' : ¬ (start ≤ j ∧ j < start + (c :: cs).length) := by simp; omega
        rw [dif_neg h', if_neg hs]

/-- A cell below or above the written ones keeps its value. -/
theorem writeCells_of_outside {n : Nat} (cs : List DisplayChar) (buf : Vector DisplayChar n) (start j : Nat)
    (hj : j < n) (h : j < start ∨ start + cs.length ≤ j) : (writeCells buf start cs)[j] = buf[j] := by
  rw [writeCells_getElem, dif_neg (by omega)]

/-- The k-th character goes to cell start + k (R173). -/
theorem writeCells_of_inside {n : Nat} (cs : List DisplayChar) (buf : Vector DisplayChar n) (start k : Nat)
    (hk : k < cs.length) (hj : start + k < n) : (writeCells buf start cs)[start + k] = cs[k] := by
  rw [writeCells_getElem, dif_pos (by omega)]
  simp

/-- Each cell afterwards holds what it held or one of the characters written. -/
theorem writeCells_old_or_new {n : Nat} (cs : List DisplayChar) (buf : Vector DisplayChar n) (start j : Nat)
    (hj : j < n) : (writeCells buf start cs)[j] = buf[j] ∨ (writeCells buf start cs)[j] ∈ cs := by
  rw [writeCells_getElem]
  split
  · exact .inr (List.getElem_mem _)
  · exact .inl rfl

/-! ### Sets -/

theorem afValid_iff (c : Code) : afValid c = true ↔ 1 ≤ c.toNat ∧ c.toNat ≤ 203 := by
  simp [afValid, BitVec.ult]
  omega

/-- What AF_FEED leaves in the set: what was there, and the code if it is valid (R190). -/
theorem afHas_afFeed (c : Code) (st : Station) (n : Nat) :
    afHas (afFeed c st) n = (afHas st n || (decide (n = c.toNat) && afValid c)) := by
  unfold afHas
  rw [afFeed_af]
  by_cases hv : afValid c = true
  · have hb := (afValid_iff c).1 hv
    rw [if_pos hv]
    simp only [BitVec.getLsbD_or, BitVec.getLsbD_twoPow, hv, Bool.and_true]
    by_cases hn : 1 ≤ n
    · have e : (c.toNat - 1 = n - 1) ↔ n = c.toNat := by omega
      have l : c.toNat - 1 < 203 := by omega
      simp [hn, e, l]
    · have e : n ≠ c.toNat := by omega
      simp [hn, e]
  · simp [hv]

/-- What SEEN[GT] <- 1 leaves in the set (R134). -/
theorem seenHas_markSeen (gt : BitVec 4) (st : Station) (g : BitVec 4) :
    seenHas (markSeen gt st) g = (seenHas st g || decide (g = gt)) := by
  have l : gt.toNat < 16 := gt.isLt
  have e : (gt.toNat = g.toNat) ↔ g = gt := by
    rw [BitVec.toNat_inj]
    exact eq_comm
  simp [seenHas, l, e]

/-! ### The gate -/

theorem usable_iff (q th : Level) : usable q th = true ↔ q.toNat ≤ th.toNat := by
  simp [usable, BitVec.ule]

/-- The verdict in numbers (R111, R113). -/
theorem gatePass_iff (always : Bool) (gt : BitVec 4) (ver : Bool) (k : Common) :
    gatePass always gt ver k = true ↔
      k.qa.toNat ≤ 2 ∧ k.qb.toNat ≤ 1 ∧ (needC always gt ver = true → k.qc.toNat ≤ 2) ∧
        (needD always gt = true → k.qd.toNat ≤ 2) := by
  simp only [gatePass, Bool.and_eq_true, Bool.or_eq_true, Bool.not_eq_true', usable_iff, thA, thB, thC, thD]
  cases needC always gt ver <;> cases needD always gt <;> simp [and_assoc]

/-! ### The DECODE transaction -/

/-- DECODE always answers a next state: the accepted one or the rejected one (R250). -/
theorem transact_cases (gt : BitVec 4) (ver : Bool) (k : Common) (route : Station → Station) (s : State) :
    (gatePass gateCdAlways gt ver k = true ∧
      transact gt ver k route s
        = .next { s with station := acceptedStation gt k route s.station, accept := some true }) ∨
    (gatePass gateCdAlways gt ver k = false ∧
      transact gt ver k route s = .next { s with accept := some false }) := by
  unfold transact
  cases h : gatePass gateCdAlways gt ver k
  · exact .inr ⟨rfl, rfl⟩
  · exact .inl ⟨rfl, rfl⟩

theorem transact_of_pass {gt : BitVec 4} {ver : Bool} {k : Common} (route : Station → Station) (s : State)
    (h : gatePass gateCdAlways gt ver k = true) :
    transact gt ver k route s
      = .next { s with station := acceptedStation gt k route s.station, accept := some true } := by
  simp [transact, h]

theorem transact_of_fail {gt : BitVec 4} {ver : Bool} {k : Common} (route : Station → Station) (s : State)
    (h : gatePass gateCdAlways gt ver k = false) :
    transact gt ver k route s = .next { s with accept := some false } := by
  simp [transact, h, reject]

/-- The route of an instruction (R132): what an accepted group does to the station state between the common fields and
SEEN. -/
def routeOf : Instr → Station → Station
  | .g0a _ p af1 af2 c1 c2 => fun st => afRoute af1 af2 (psRoute p c1 c2 st)
  | .g0b _ p _ c1 c2 => psRoute p c1 c2
  | .g2a _ r c1 c2 c3 c4 => rtRouteA r c1 c2 c3 c4
  | .g2b _ r _ c1 c2 => rtRouteB r c1 c2
  | _ => id

/-- Every meaning is DECODE with the instruction's own row, operands and route. -/
theorem exec_eq_transact (i : Instr) (s : State) :
    exec i s = transact (gtOf i) (verOf i) (instrCommon i) (routeOf i) s := by
  cases i <;> rfl

/-- Everything that exec can do (R250). -/
theorem exec_cases (i : Instr) (s : State) :
    (passes i = true ∧
      exec i s = .next { s with
        station := acceptedStation (gtOf i) (instrCommon i) (routeOf i) s.station, accept := some true }) ∨
    (passes i = false ∧ exec i s = .next { s with accept := some false }) := by
  rw [exec_eq_transact]
  exact transact_cases _ _ _ _ _

end Sys2Proof.Laws
end

