-- ==== Sys2Proof/Laws/PerInstr.lean ====
section
/-! SUPPORT. Facts about every instruction as syntax, one lemma per constructor: the fixed bits of block B are those of
the instruction's row in the opcode table (R88). -/

namespace Sys2Proof.Laws.RouteBits

open Sys2Proof.Machine

/-- The top five bits of the encoded block B are the row's, so with the table's mask 0xF800 block B matches its row. -/
def Statement (i : Instr) : Prop := (encode i).b.extractLsb' 11 5 = gtOf i ++ BitVec.ofBool (verOf i)

theorem g0a (k : Common) (p : PsHeader) (af1 af2 c1 c2 : Code) : Statement (.g0a k p af1 af2 c1 c2) :=
  topBits_blockB _ _ _ _ _

theorem g0b (k : Common) (p : PsHeader) (blkC : Block) (c1 c2 : Code) : Statement (.g0b k p blkC c1 c2) :=
  topBits_blockB _ _ _ _ _

theorem g1a (k : Common) (x : BitVec 5) (blkC blkD : Block) : Statement (.g1a k x blkC blkD) :=
  topBits_blockB _ _ _ _ _

theorem g1b (k : Common) (x : BitVec 5) (blkC blkD : Block) : Statement (.g1b k x blkC blkD) :=
  topBits_blockB _ _ _ _ _

theorem g2a (k : Common) (r : RtHeader) (c1 c2 c3 c4 : Code) : Statement (.g2a k r c1 c2 c3 c4) :=
  topBits_blockB _ _ _ _ _

theorem g2b (k : Common) (r : RtHeader) (blkC : Block) (c1 c2 : Code) : Statement (.g2b k r blkC c1 c2) :=
  topBits_blockB _ _ _ _ _

theorem g3a (k : Common) (x : BitVec 5) (blkC blkD : Block) : Statement (.g3a k x blkC blkD) :=
  topBits_blockB _ _ _ _ _

theorem g3b (k : Common) (x : BitVec 5) (blkC blkD : Block) : Statement (.g3b k x blkC blkD) :=
  topBits_blockB _ _ _ _ _

theorem g4a (k : Common) (x : BitVec 5) (blkC blkD : Block) : Statement (.g4a k x blkC blkD) :=
  topBits_blockB _ _ _ _ _

theorem g4b (k : Common) (x : BitVec 5) (blkC blkD : Block) : Statement (.g4b k x blkC blkD) :=
  topBits_blockB _ _ _ _ _

theorem g5a (k : Common) (x : BitVec 5) (blkC blkD : Block) : Statement (.g5a k x blkC blkD) :=
  topBits_blockB _ _ _ _ _

theorem g5b (k : Common) (x : BitVec 5) (blkC blkD : Block) : Statement (.g5b k x blkC blkD) :=
  topBits_blockB _ _ _ _ _

theorem g6a (k : Common) (x : BitVec 5) (blkC blkD : Block) : Statement (.g6a k x blkC blkD) :=
  topBits_blockB _ _ _ _ _

theorem g6b (k : Common) (x : BitVec 5) (blkC blkD : Block) : Statement (.g6b k x blkC blkD) :=
  topBits_blockB _ _ _ _ _

theorem g7a (k : Common) (x : BitVec 5) (blkC blkD : Block) : Statement (.g7a k x blkC blkD) :=
  topBits_blockB _ _ _ _ _

theorem g7b (k : Common) (x : BitVec 5) (blkC blkD : Block) : Statement (.g7b k x blkC blkD) :=
  topBits_blockB _ _ _ _ _

theorem g8a (k : Common) (x : BitVec 5) (blkC blkD : Block) : Statement (.g8a k x blkC blkD) :=
  topBits_blockB _ _ _ _ _

theorem g8b (k : Common) (x : BitVec 5) (blkC blkD : Block) : Statement (.g8b k x blkC blkD) :=
  topBits_blockB _ _ _ _ _

theorem g9a (k : Common) (x : BitVec 5) (blkC blkD : Block) : Statement (.g9a k x blkC blkD) :=
  topBits_blockB _ _ _ _ _

theorem g9b (k : Common) (x : BitVec 5) (blkC blkD : Block) : Statement (.g9b k x blkC blkD) :=
  topBits_blockB _ _ _ _ _

theorem g10a (k : Common) (x : BitVec 5) (blkC blkD : Block) : Statement (.g10a k x blkC blkD) :=
  topBits_blockB _ _ _ _ _

theorem g10b (k : Common) (x : BitVec 5) (blkC blkD : Block) : Statement (.g10b k x blkC blkD) :=
  topBits_blockB _ _ _ _ _

theorem g11a (k : Common) (x : BitVec 5) (blkC blkD : Block) : Statement (.g11a k x blkC blkD) :=
  topBits_blockB _ _ _ _ _

theorem g11b (k : Common) (x : BitVec 5) (blkC blkD : Block) : Statement (.g11b k x blkC blkD) :=
  topBits_blockB _ _ _ _ _

theorem g12a (k : Common) (x : BitVec 5) (blkC blkD : Block) : Statement (.g12a k x blkC blkD) :=
  topBits_blockB _ _ _ _ _

theorem g12b (k : Common) (x : BitVec 5) (blkC blkD : Block) : Statement (.g12b k x blkC blkD) :=
  topBits_blockB _ _ _ _ _

theorem g13a (k : Common) (x : BitVec 5) (blkC blkD : Block) : Statement (.g13a k x blkC blkD) :=
  topBits_blockB _ _ _ _ _

theorem g13b (k : Common) (x : BitVec 5) (blkC blkD : Block) : Statement (.g13b k x blkC blkD) :=
  topBits_blockB _ _ _ _ _

theorem g14a (k : Common) (x : BitVec 5) (blkC blkD : Block) : Statement (.g14a k x blkC blkD) :=
  topBits_blockB _ _ _ _ _

theorem g14b (k : Common) (x : BitVec 5) (blkC blkD : Block) : Statement (.g14b k x blkC blkD) :=
  topBits_blockB _ _ _ _ _

theorem g15a (k : Common) (x : BitVec 5) (blkC blkD : Block) : Statement (.g15a k x blkC blkD) :=
  topBits_blockB _ _ _ _ _

theorem g15b (k : Common) (x : BitVec 5) (blkC blkD : Block) : Statement (.g15b k x blkC blkD) :=
  topBits_blockB _ _ _ _ _

end Sys2Proof.Laws.RouteBits
end

