-- ==== Sys2Proof/Tests/Slice0.lean ====
section
/-! SUPPORT. The model's own tests. Expected results come from the encodings of 30_encoding.md and from the vectors of
95_test_vectors.md, whose names are given; the witnesses at the end show that the hypotheses of each statement can be
met. -/

namespace Sys2Proof.Tests

open Sys2Proof.Machine Sys2Proof.Safety

/-! ### Small states and readings of an outcome -/

/-- The state S0 of 95_test_vectors.md, with one group to come. -/
def s0With (g : Group) : State := { State.reset with pending := [.grp g] }

/-- A group with all levels 0. -/
def grp (a b c d : Block) : Group := ⟨a, b, c, d, 0#2, 0#2, 0#2, 0#2⟩

/-- The group of L1-6. -/
def scenario : Group := grp 0xF832#16 0x0080#16 0x0B00#16 0x4869#16

/-- A station reading after a step, none where the machine stops. -/
def after {α : Type} (f : Station → α) : Host.Outcome State Fault Refusal → Option α
  | .next t => some (f t.station)
  | _ => none

/-- ACCEPT after a step. -/
def acceptAfter : Host.Outcome State Fault Refusal → Option Bool
  | .next t => t.accept
  | _ => none

/-- S0 with a radio text of one repeated character, under toggle ab. -/
def withText (x : DisplayChar) (ab : Bool) : State :=
  { State.reset with station := { State.reset.station with rt := Vector.replicate 64 x, rtAb := ab } }

/-- S0 with a given AF set. -/
def withAf (af : BitVec 203) : State := { State.reset with station := { State.reset.station with af := af } }

/-- Operands common to every group, with given levels. -/
def common (qa qb qc qd : Level) : Common := ⟨0x1234#16, true, 10#5, qa, qb, qc, qd⟩

/-! ### Well-formedness: the check refuses both group types that are no GX -/

theorem test_gx_type_0_ill_formed : (Symbolic.gx 0x5555#16 0#4 false true 9#5).wellFormed = false := by decide

theorem test_gx_type_2_ill_formed : (Symbolic.gx 0x5555#16 2#4 true true 9#5).wellFormed = false := by decide

theorem test_gx_type_1_well_formed : (Symbolic.gx 0x5555#16 1#4 false true 9#5).wellFormed = true := by decide

/-! ### Decoding: block B written out bit by bit from R89, one word for each row -/

theorem test_decode_g0a :
    decode ⟨0xF832#16, 0b0000010110101011#16, 0x0BCC#16, 0x4869#16, 1#2, 0#2, 2#2, 3#2⟩
      = .g0a ⟨0xF832#16, true, 0b01101#5, 1#2, 0#2, 2#2, 3#2⟩ ⟨false, true, false, 0b11#2⟩ 0x0B#8 0xCC#8 0x48#8 0x69#8 := by decide

theorem test_decode_g0b :
    decode ⟨0xF832#16, 0b0000110110101011#16, 0x0BCC#16, 0x4869#16, 1#2, 0#2, 2#2, 3#2⟩
      = .g0b ⟨0xF832#16, true, 0b01101#5, 1#2, 0#2, 2#2, 3#2⟩ ⟨false, true, false, 0b11#2⟩ 0x0BCC#16 0x48#8 0x69#8 := by decide

theorem test_decode_g1a :
    decode ⟨0xF832#16, 0b0001010110110110#16, 0x0BCC#16, 0x4869#16, 1#2, 0#2, 2#2, 3#2⟩
      = .g1a ⟨0xF832#16, true, 0b01101#5, 1#2, 0#2, 2#2, 3#2⟩ 0b10110#5 0x0BCC#16 0x4869#16 := by decide

theorem test_decode_g1b :
    decode ⟨0xF832#16, 0b0001110110110110#16, 0x0BCC#16, 0x4869#16, 1#2, 0#2, 2#2, 3#2⟩
      = .g1b ⟨0xF832#16, true, 0b01101#5, 1#2, 0#2, 2#2, 3#2⟩ 0b10110#5 0x0BCC#16 0x4869#16 := by decide

theorem test_decode_g2a :
    decode ⟨0xF832#16, 0b0010010110110110#16, 0x0BCC#16, 0x4869#16, 1#2, 0#2, 2#2, 3#2⟩
      = .g2a ⟨0xF832#16, true, 0b01101#5, 1#2, 0#2, 2#2, 3#2⟩ ⟨true, 0b0110#4⟩ 0x0B#8 0xCC#8 0x48#8 0x69#8 := by decide

theorem test_decode_g2b :
    decode ⟨0xF832#16, 0b0010110110110110#16, 0x0BCC#16, 0x4869#16, 1#2, 0#2, 2#2, 3#2⟩
      = .g2b ⟨0xF832#16, true, 0b01101#5, 1#2, 0#2, 2#2, 3#2⟩ ⟨true, 0b0110#4⟩ 0x0BCC#16 0x48#8 0x69#8 := by decide

theorem test_decode_g3a :
    decode ⟨0xF832#16, 0b0011010110110110#16, 0x0BCC#16, 0x4869#16, 1#2, 0#2, 2#2, 3#2⟩
      = .g3a ⟨0xF832#16, true, 0b01101#5, 1#2, 0#2, 2#2, 3#2⟩ 0b10110#5 0x0BCC#16 0x4869#16 := by decide

theorem test_decode_g3b :
    decode ⟨0xF832#16, 0b0011110110110110#16, 0x0BCC#16, 0x4869#16, 1#2, 0#2, 2#2, 3#2⟩
      = .g3b ⟨0xF832#16, true, 0b01101#5, 1#2, 0#2, 2#2, 3#2⟩ 0b10110#5 0x0BCC#16 0x4869#16 := by decide

theorem test_decode_g4a :
    decode ⟨0xF832#16, 0b0100010110110110#16, 0x0BCC#16, 0x4869#16, 1#2, 0#2, 2#2, 3#2⟩
      = .g4a ⟨0xF832#16, true, 0b01101#5, 1#2, 0#2, 2#2, 3#2⟩ 0b10110#5 0x0BCC#16 0x4869#16 := by decide

theorem test_decode_g4b :
    decode ⟨0xF832#16, 0b0100110110110110#16, 0x0BCC#16, 0x4869#16, 1#2, 0#2, 2#2, 3#2⟩
      = .g4b ⟨0xF832#16, true, 0b01101#5, 1#2, 0#2, 2#2, 3#2⟩ 0b10110#5 0x0BCC#16 0x4869#16 := by decide

theorem test_decode_g5a :
    decode ⟨0xF832#16, 0b0101010110110110#16, 0x0BCC#16, 0x4869#16, 1#2, 0#2, 2#2, 3#2⟩
      = .g5a ⟨0xF832#16, true, 0b01101#5, 1#2, 0#2, 2#2, 3#2⟩ 0b10110#5 0x0BCC#16 0x4869#16 := by decide

theorem test_decode_g5b :
    decode ⟨0xF832#16, 0b0101110110110110#16, 0x0BCC#16, 0x4869#16, 1#2, 0#2, 2#2, 3#2⟩
      = .g5b ⟨0xF832#16, true, 0b01101#5, 1#2, 0#2, 2#2, 3#2⟩ 0b10110#5 0x0BCC#16 0x4869#16 := by decide

theorem test_decode_g6a :
    decode ⟨0xF832#16, 0b0110010110110110#16, 0x0BCC#16, 0x4869#16, 1#2, 0#2, 2#2, 3#2⟩
      = .g6a ⟨0xF832#16, true, 0b01101#5, 1#2, 0#2, 2#2, 3#2⟩ 0b10110#5 0x0BCC#16 0x4869#16 := by decide

theorem test_decode_g6b :
    decode ⟨0xF832#16, 0b0110110110110110#16, 0x0BCC#16, 0x4869#16, 1#2, 0#2, 2#2, 3#2⟩
      = .g6b ⟨0xF832#16, true, 0b01101#5, 1#2, 0#2, 2#2, 3#2⟩ 0b10110#5 0x0BCC#16 0x4869#16 := by decide

theorem test_decode_g7a :
    decode ⟨0xF832#16, 0b0111010110110110#16, 0x0BCC#16, 0x4869#16, 1#2, 0#2, 2#2, 3#2⟩
      = .g7a ⟨0xF832#16, true, 0b01101#5, 1#2, 0#2, 2#2, 3#2⟩ 0b10110#5 0x0BCC#16 0x4869#16 := by decide

theorem test_decode_g7b :
    decode ⟨0xF832#16, 0b0111110110110110#16, 0x0BCC#16, 0x4869#16, 1#2, 0#2, 2#2, 3#2⟩
      = .g7b ⟨0xF832#16, true, 0b01101#5, 1#2, 0#2, 2#2, 3#2⟩ 0b10110#5 0x0BCC#16 0x4869#16 := by decide

theorem test_decode_g8a :
    decode ⟨0xF832#16, 0b1000010110110110#16, 0x0BCC#16, 0x4869#16, 1#2, 0#2, 2#2, 3#2⟩
      = .g8a ⟨0xF832#16, true, 0b01101#5, 1#2, 0#2, 2#2, 3#2⟩ 0b10110#5 0x0BCC#16 0x4869#16 := by decide

theorem test_decode_g8b :
    decode ⟨0xF832#16, 0b1000110110110110#16, 0x0BCC#16, 0x4869#16, 1#2, 0#2, 2#2, 3#2⟩
      = .g8b ⟨0xF832#16, true, 0b01101#5, 1#2, 0#2, 2#2, 3#2⟩ 0b10110#5 0x0BCC#16 0x4869#16 := by decide

theorem test_decode_g9a :
    decode ⟨0xF832#16, 0b1001010110110110#16, 0x0BCC#16, 0x4869#16, 1#2, 0#2, 2#2, 3#2⟩
      = .g9a ⟨0xF832#16, true, 0b01101#5, 1#2, 0#2, 2#2, 3#2⟩ 0b10110#5 0x0BCC#16 0x4869#16 := by decide

theorem test_decode_g9b :
    decode ⟨0xF832#16, 0b1001110110110110#16, 0x0BCC#16, 0x4869#16, 1#2, 0#2, 2#2, 3#2⟩
      = .g9b ⟨0xF832#16, true, 0b01101#5, 1#2, 0#2, 2#2, 3#2⟩ 0b10110#5 0x0BCC#16 0x4869#16 := by decide

theorem test_decode_g10a :
    decode ⟨0xF832#16, 0b1010010110110110#16, 0x0BCC#16, 0x4869#16, 1#2, 0#2, 2#2, 3#2⟩
      = .g10a ⟨0xF832#16, true, 0b01101#5, 1#2, 0#2, 2#2, 3#2⟩ 0b10110#5 0x0BCC#16 0x4869#16 := by decide

theorem test_decode_g10b :
    decode ⟨0xF832#16, 0b1010110110110110#16, 0x0BCC#16, 0x4869#16, 1#2, 0#2, 2#2, 3#2⟩
      = .g10b ⟨0xF832#16, true, 0b01101#5, 1#2, 0#2, 2#2, 3#2⟩ 0b10110#5 0x0BCC#16 0x4869#16 := by decide

theorem test_decode_g11a :
    decode ⟨0xF832#16, 0b1011010110110110#16, 0x0BCC#16, 0x4869#16, 1#2, 0#2, 2#2, 3#2⟩
      = .g11a ⟨0xF832#16, true, 0b01101#5, 1#2, 0#2, 2#2, 3#2⟩ 0b10110#5 0x0BCC#16 0x4869#16 := by decide

theorem test_decode_g11b :
    decode ⟨0xF832#16, 0b1011110110110110#16, 0x0BCC#16, 0x4869#16, 1#2, 0#2, 2#2, 3#2⟩
      = .g11b ⟨0xF832#16, true, 0b01101#5, 1#2, 0#2, 2#2, 3#2⟩ 0b10110#5 0x0BCC#16 0x4869#16 := by decide

theorem test_decode_g12a :
    decode ⟨0xF832#16, 0b1100010110110110#16, 0x0BCC#16, 0x4869#16, 1#2, 0#2, 2#2, 3#2⟩
      = .g12a ⟨0xF832#16, true, 0b01101#5, 1#2, 0#2, 2#2, 3#2⟩ 0b10110#5 0x0BCC#16 0x4869#16 := by decide

theorem test_decode_g12b :
    decode ⟨0xF832#16, 0b1100110110110110#16, 0x0BCC#16, 0x4869#16, 1#2, 0#2, 2#2, 3#2⟩
      = .g12b ⟨0xF832#16, true, 0b01101#5, 1#2, 0#2, 2#2, 3#2⟩ 0b10110#5 0x0BCC#16 0x4869#16 := by decide

theorem test_decode_g13a :
    decode ⟨0xF832#16, 0b1101010110110110#16, 0x0BCC#16, 0x4869#16, 1#2, 0#2, 2#2, 3#2⟩
      = .g13a ⟨0xF832#16, true, 0b01101#5, 1#2, 0#2, 2#2, 3#2⟩ 0b10110#5 0x0BCC#16 0x4869#16 := by decide

theorem test_decode_g13b :
    decode ⟨0xF832#16, 0b1101110110110110#16, 0x0BCC#16, 0x4869#16, 1#2, 0#2, 2#2, 3#2⟩
      = .g13b ⟨0xF832#16, true, 0b01101#5, 1#2, 0#2, 2#2, 3#2⟩ 0b10110#5 0x0BCC#16 0x4869#16 := by decide

theorem test_decode_g14a :
    decode ⟨0xF832#16, 0b1110010110110110#16, 0x0BCC#16, 0x4869#16, 1#2, 0#2, 2#2, 3#2⟩
      = .g14a ⟨0xF832#16, true, 0b01101#5, 1#2, 0#2, 2#2, 3#2⟩ 0b10110#5 0x0BCC#16 0x4869#16 := by decide

theorem test_decode_g14b :
    decode ⟨0xF832#16, 0b1110110110110110#16, 0x0BCC#16, 0x4869#16, 1#2, 0#2, 2#2, 3#2⟩
      = .g14b ⟨0xF832#16, true, 0b01101#5, 1#2, 0#2, 2#2, 3#2⟩ 0b10110#5 0x0BCC#16 0x4869#16 := by decide

theorem test_decode_g15a :
    decode ⟨0xF832#16, 0b1111010110110110#16, 0x0BCC#16, 0x4869#16, 1#2, 0#2, 2#2, 3#2⟩
      = .g15a ⟨0xF832#16, true, 0b01101#5, 1#2, 0#2, 2#2, 3#2⟩ 0b10110#5 0x0BCC#16 0x4869#16 := by decide

theorem test_decode_g15b :
    decode ⟨0xF832#16, 0b1111110110110110#16, 0x0BCC#16, 0x4869#16, 1#2, 0#2, 2#2, 3#2⟩
      = .g15b ⟨0xF832#16, true, 0b01101#5, 1#2, 0#2, 2#2, 3#2⟩ 0b10110#5 0x0BCC#16 0x4869#16 := by decide

/-- Bit 0 of the table's first word is B[0]; A, C, D and the levels follow B. -/
theorem test_table_word_is_block_b :
    decodeTableWord 16 0x4080 = some (.g4a ⟨0#16, false, 4#5, 0#2, 0#2, 0#2, 0#2⟩ 0#5 0#16 0#16) := by decide

/-! ### The symbolic constructors of R92 expand to the words of 95_test_vectors.md -/

/-- L1-6, written as in the example of R150. -/
theorem test_expand_g0a :
    (Symbolic.g0a 0xF832#16 false 4#5 false 0#2 11#8 0#8 0x48#8 0x69#8).expand = scenario := by decide

/-- L1-5, step 2. -/
theorem test_expand_g0b :
    (Symbolic.g0b 0x1234#16 false 0#5 false 2#2 0x43#8 0x44#8).expand
      = grp 0x1234#16 0x0802#16 0x1234#16 0x4344#16 := by decide

/-- V-RT-3. -/
theorem test_expand_g2a :
    (Symbolic.g2a 0xC201#16 false 0#5 true 1#4 0x4F#8 0x4B#8 0x20#8 0x20#8).expand
      = grp 0xC201#16 0x2011#16 0x4F4B#16 0x2020#16 := by decide

/-- The example of R171. -/
theorem test_expand_g2b :
    (Symbolic.g2b 0xC201#16 false 0#5 true 2#4 0x21#8 0x21#8).expand
      = grp 0xC201#16 0x2812#16 0xC201#16 0x2121#16 := by decide

/-- V-D-5. -/
theorem test_expand_gx :
    (Symbolic.gx 0x5555#16 1#4 false true 9#5).expand = grp 0x5555#16 0x1520#16 0#16 0#16 := by decide

/-! ### The gate (V-G) -/

/-- V-G-10: every block exactly at its threshold. -/
theorem test_gate_at_thresholds :
    acceptAfter (step (s0With { scenario with qa := 2#2, qb := 1#2, qc := 2#2, qd := 2#2 })) = some true := by decide

/-- V-G-5 and L1-1: block B is the strictest. -/
theorem test_gate_block_b_level_2 : acceptAfter (step (s0With { scenario with qb := 2#2 })) = some false := by decide

/-- V-G-7: block C is needed by G0A. -/
theorem test_gate_g0a_block_c : acceptAfter (step (s0With { scenario with qc := 3#2 })) = some false := by decide

/-- V-G-11 and V-G-12: block C is not needed by G0B, block D is. -/
theorem test_gate_g0b :
    acceptAfter (step (s0With ⟨0x1234#16, 0x0800#16, 0x1234#16, 0x4142#16, 0#2, 0#2, 3#2, 0#2⟩)) = some true ∧
    acceptAfter (step (s0With ⟨0x1234#16, 0x0800#16, 0x1234#16, 0x4142#16, 0#2, 0#2, 0#2, 3#2⟩)) = some false := by
  decide

/-- V-G-13, V-G-14 and V-G-15. -/
theorem test_gate_group_two :
    acceptAfter (step (s0With ⟨0xC201#16, 0x2000#16, 0x4845#16, 0x4C4C#16, 0#2, 0#2, 3#2, 0#2⟩)) = some false ∧
    acceptAfter (step (s0With ⟨0xC201#16, 0x2800#16, 0xC201#16, 0x4142#16, 0#2, 0#2, 3#2, 0#2⟩)) = some true ∧
    acceptAfter (step (s0With ⟨0xC201#16, 0x2800#16, 0xC201#16, 0x4142#16, 0#2, 0#2, 0#2, 3#2⟩)) = some false := by
  decide

/-- V-G-16 and V-G-17. -/
theorem test_gate_gx :
    acceptAfter (step (s0With ⟨0xF832#16, 0x4080#16, 0xFFFF#16, 0xFFFF#16, 0#2, 0#2, 3#2, 3#2⟩)) = some true ∧
    acceptAfter (step (s0With ⟨0xF832#16, 0x4080#16, 0xFFFF#16, 0xFFFF#16, 0#2, 2#2, 3#2, 3#2⟩)) = some false := by
  decide

/-- V-G-18 and V-G-19: with GATE_CD_ALWAYS, C is gated on a GX group and on G0B. -/
theorem test_gate_cd_always :
    gatePass true 4#4 false (common 0#2 0#2 3#2 0#2) = false ∧
    gatePass true 0#4 true (common 0#2 0#2 3#2 0#2) = false := by decide

/-! ### Group 0 (L1-6, V-PS, V-AF) -/

/-- L1-6: PI, PTY, TP, static PTY and SEEN. -/
theorem test_scenario_registers :
    after (fun st => (st.pi, st.pty, st.tp, st.seen)) (step (s0With scenario))
      = some (0xF832#16, 4#5, false, 0x0001#16) := by decide

/-- L1-6: the name begins "Hi", by the two pinned entries, and the rest is blank; AF is {11}. -/
theorem test_scenario_name_and_af :
    after (fun st => (st.ps[0], st.ps[1], st.ps[2], st.ps[7], st.af)) (step (s0With scenario))
      = some ('H', 'i', ' ', ' ', 1#203 <<< 10) := by decide

/-- L1-6: DI_SPTY is 1, for either value of DI_BIT. -/
theorem test_scenario_static_pty : after (fun st => st.diSpty) (step (s0With scenario)) = some true := by
  show some ((diValue Config.diBit ⟨false, false, false, 0#2⟩).xor true) = some true
  cases Config.diBit <;> rfl

/-- V-PS-8: sub-address 3 writes cells 6 and 7, the high byte's character first. -/
theorem test_g0b_last_cells :
    after (fun st => (st.ps[5], st.ps[6], st.ps[7])) (step (s0With (grp 1#16 0x0803#16 0#16 0x4869#16)))
      = some (' ', 'H', 'i') := by decide

/-- V-PS-6: the one vector that depends on DI_BIT. -/
theorem test_di_bit_choice (i1 i2 : Bool) :
    diFlag .bit3 i1 i2 ⟨false, true, false, 0#2⟩ = false ∧ diFlag .bit2 i1 i2 ⟨false, true, false, 0#2⟩ = true := by
  cases i1 <;> cases i2 <;> decide

/-- V-PS-1 to V-PS-5: the polarities, with DI_INV[1] and DI_INV[2] at 1 and at 0. -/
theorem test_di_polarities :
    diFlag .bit3 true true ⟨false, true, true, 0#2⟩ = false ∧ diFlag .bit3 true true ⟨false, false, false, 1#2⟩ = true ∧
    diFlag .bit3 false true ⟨false, false, false, 1#2⟩ = false ∧
    diFlag .bit3 true true ⟨false, false, false, 2#2⟩ = true ∧
    diFlag .bit3 true false ⟨false, false, false, 2#2⟩ = false ∧
    diFlag .bit3 true true ⟨false, true, true, 3#2⟩ = true ∧ diFlag .bit3 true true ⟨false, false, false, 3#2⟩ = false := by
  decide

/-- V-PS-10 and V-AF-16: block C of 0B and of 2A never reaches the AF set. -/
theorem test_no_af_feed :
    after (fun st => st.af) (step (s0With (grp 1#16 0x0801#16 0x0B0B#16 0x4344#16))) = some 0#203 ∧
    after (fun st => st.af) (step (s0With (grp 1#16 0x2000#16 0x0B0B#16 0x4344#16))) = some 0#203 := by decide

/-- L1-3: codes 0 and 204 are dropped, and the rest of the group takes effect. -/
theorem test_af_boundary_dropped :
    after (fun st => (st.pi, st.af)) (step (s0With (grp 0x1111#16 0#16 0x00CC#16 0x2020#16)))
      = some (0x1111#16, 0#203) := by decide

/-- L1-3: codes 1 and 203 are inserted. -/
theorem test_af_boundary_inserted :
    after (fun st => (afHas st 1, afHas st 2, afHas st 202, afHas st 203))
      (step (s0With (grp 0x1111#16 0#16 0x01CB#16 0x2020#16))) = some (true, false, false, true) := by decide

/-! ### Group 2 (V-RT, V-D) -/

/-- V-D-3: a flip, then the last four cells; C before D, high byte first. -/
theorem test_g2a_flip_and_last_cells :
    after (fun st => (st.rtAb, st.rt[59], st.rt[60], st.rt[63], st.seen))
      (step { withText 'x' false with pending := [.grp (grp 0xC201#16 0x27FF#16 0x4800#16 0x0069#16)] })
      = some (true, ' ', 'H', 'i', 0x0004#16) := by decide

/-- V-RT-12: the same toggle clears nothing. -/
theorem test_g2a_same_toggle :
    after (fun st => (st.rtAb, st.rt[1], st.rt[4]))
      (step { withText 'x' false with pending := [.grp (grp 0xC201#16 0x2000#16 0x4869#16 0x4848#16)] })
      = some (false, 'i', 'x') := by decide

/-- V-RT-4: a 2B segment starts at 2 × SEG. -/
theorem test_g2b_offset :
    after (fun st => (st.rt[3], st.rt[4], st.rt[5], st.rt[6], st.rt[8]))
      (step { withText 'x' false with pending := [.grp (grp 0xC201#16 0x2802#16 0xC201#16 0x4869#16)] })
      = some ('x', 'H', 'i', 'x', 'x') := by decide

/-- V-RT-6: a 2B flip clears the upper half too. -/
theorem test_g2b_flip_clears_all :
    after (fun st => (st.rtAb, st.rt[0], st.rt[2], st.rt[60]))
      (step { withText 'x' false with pending := [.grp (grp 0xC201#16 0x2810#16 0xC201#16 0x4848#16)] })
      = some (true, 'H', ' ', ' ') := by decide

/-- V-RT-7: a rejected group neither clears nor stores the toggle. -/
theorem test_g2a_rejected :
    after (fun st => (st.rtAb, st.rt[0], st.rt[63], st.seen))
      (step { withText 'x' false with
        pending := [.grp ⟨0xC201#16, 0x2011#16, 0x4F4B#16, 0x2020#16, 0#2, 2#2, 0#2, 0#2⟩] })
      = some (false, 'x', 'x', 0#16) := by decide

/-! ### Other groups (V-D) -/

/-- V-D-2: type 15B writes PI, TP, PTY and SEEN[15]. -/
theorem test_g15b_registers :
    after (fun st => (st.pi, st.tp, st.pty, st.seen, st.af, st.ps[0]))
      (step (s0With (grp 0#16 0xF800#16 0x1234#16 0x5678#16)))
      = some (0#16, false, 0#5, 0x8000#16, 0#203, ' ') := by decide

/-- V-D-6: type 3B; B[4:0] is ignored. -/
theorem test_g3b_registers :
    after (fun st => (st.pi, st.tp, st.pty, st.seen)) (step (s0With (grp 0x5555#16 0x381F#16 0xFFFF#16 0xFFFF#16)))
      = some (0x5555#16, false, 0#5, 0x0008#16) := by decide

/-! ### RESET and the ports (V-R, V-P) -/

/-- V-R-2: RESET empties SEEN and AF and blanks the buffers. -/
theorem test_reset_step :
    after (fun st => (st.rt[0], st.ps[0], st.rtAb, st.seen, st.af))
      (step { withText 'x' true with pending := [.rst] }) = some (' ', ' ', false, 0#16, 0#203) := by decide

/-- V-AF-13: the port is ascending. -/
theorem test_port_af : portAf (withAf (1#203 <<< 99 ||| 1#203 <<< 9)) = [885, 975] := by decide

/-- L1-3, with the correction of C2: 87.6 and 107.8 MHz. -/
theorem test_port_af_mhz : portAfMhz (withAf (1#203 ||| 1#203 <<< 202)) = [⟨87, 6⟩, ⟨107, 8⟩] := by decide

/-- V-D-8: SEEN = 0x8010 is the set of types 4 and 15. -/
theorem test_port_seen :
    portSeen { State.reset with station := { State.reset.station with seen := 0x8010#16 } } = [4, 15] := by decide

/-- V-P-6: the PS port shows all eight cells. -/
theorem test_port_ps_blank : portPs State.reset = [' ', ' ', ' ', ' ', ' ', ' ', ' ', ' '] := by decide

/-! ### Witnesses: the hypotheses of each statement can be met -/

/-- G0A, G2A: all levels at their thresholds. -/
def kAll : Common := common 2#2 1#2 2#2 2#2

/-- G0B, G2B: block C at level 3. -/
def kNoC : Common := common 2#2 1#2 3#2 2#2

/-- GX: blocks C and D at level 3. -/
def kNoCD : Common := common 2#2 1#2 3#2 3#2

/-- Rejected whatever the group is. -/
def kBad : Common := common 0#2 2#2 0#2 0#2

theorem witness_levels_all : kAll.qa.toNat ≤ 2 ∧ kAll.qb.toNat ≤ 1 ∧ kAll.qc.toNat ≤ 2 ∧ kAll.qd.toNat ≤ 2 := by decide

theorem witness_levels_no_c : kNoC.qa.toNat ≤ 2 ∧ kNoC.qb.toNat ≤ 1 ∧ kNoC.qd.toNat ≤ 2 := by decide

theorem witness_levels_no_cd : kNoCD.qa.toNat ≤ 2 ∧ kNoCD.qb.toNat ≤ 1 := by decide

theorem witness_rejected :
    passes (.g0a kBad ⟨false, false, false, 0#2⟩ 1#8 203#8 0#8 0#8) = false ∧
    passes (.g0b (common 0#2 0#2 0#2 3#2) ⟨false, false, false, 0#2⟩ 0#16 0#8 0#8) = false ∧
    passes (.g2a (common 0#2 0#2 3#2 0#2) ⟨true, 15#4⟩ 0#8 0#8 0#8 0#8) = false ∧
    passes (.g15b (common 3#2 0#2 0#2 0#2) 0#5 0#16 0#16) = false := by decide

theorem witness_accepted :
    passes (.g0a kAll ⟨false, false, false, 3#2⟩ 1#8 203#8 0#8 0#8) = true ∧
    passes (.g0b kNoC ⟨false, false, false, 3#2⟩ 0#16 0#8 0#8) = true ∧
    passes (.g2a kAll ⟨true, 15#4⟩ 0#8 0#8 0#8 0#8) = true ∧
    passes (.g2b kNoC ⟨true, 15#4⟩ 0#16 0#8 0#8) = true ∧
    passes (.g1a kNoCD 0#5 0#16 0#16) = true ∧ passes (.g15b kNoCD 0#5 0#16 0#16) = true := by decide

/-- SymbolicConstructorsDecodeToTheirFields: types next to 0 and 2, and the last one. -/
theorem witness_well_formed_gx :
    (Symbolic.gx 0#16 1#4 false false 0#5).wellFormed = true ∧ (Symbolic.gx 0#16 3#4 true false 0#5).wellFormed = true ∧
    (Symbolic.gx 0#16 15#4 true true 31#5).wellFormed = true := by decide

/-- StepRunsTheDecodedGroup. -/
theorem witness_pending_group : (s0With scenario).pending = .grp scenario :: [] := rfl

/-- StepPerformsReset, SeenTellsWhetherAGroupWasAccepted. -/
theorem witness_pending_reset :
    ∃ s t : State, s.pending = .rst :: [.grp scenario] ∧ step s = .next t :=
  ⟨{ State.reset with pending := [.rst, .grp scenario] }, _, rfl, rfl⟩

/-- IdleStepChangesNothing. -/
theorem witness_idle : State.reset.pending = [] := rfl

/-- StepRunsThePlacedTableWord. -/
theorem witness_table_word : ∃ i, decodeTableWord 16 0xF800 = some i := ⟨_, rfl⟩

/-- AcceptanceReadsNoState: two instructions of one row with the same levels, in two states. -/
theorem witness_same_row_and_levels :
    ∃ t t', rowOf (.g1a kNoCD 0#5 0#16 0#16) = rowOf (.g1a kNoCD 31#5 1#16 2#16) ∧
      exec (.g1a kNoCD 0#5 0#16 0#16) State.reset = .next t ∧
      exec (.g1a kNoCD 31#5 1#16 2#16) (withText 'x' true) = .next t' := ⟨_, _, rfl, rfl, rfl⟩

/-- AcceptedGroupWritesCommonFields, SubAddressSelectsTheDiFlag: an accepted group 0 at each sub-address. -/
theorem witness_accepted_group_zero :
    ∀ x : BitVec 2,
      passes (decode (grp 1#16 (x.setWidth 16) 0#16 0#16)) = true ∧
      (grp 1#16 (x.setWidth 16) 0#16 0#16).b.extractLsb' 12 4 = 0#4 ∧
      (grp 1#16 (x.setWidth 16) 0#16 0#16).b.extractLsb' 0 2 = x := by decide

/-- OtherGroupTypesWriteOnlyCommonFieldsAndSeen: types 1, 3 and 15, levels at the thresholds. -/
theorem witness_other_types :
    (0x1000#16).extractLsb' 12 4 = 1#4 ∧ (0x3000#16).extractLsb' 12 4 = 3#4 ∧ (0xFFFF#16).extractLsb' 12 4 = 15#4 ∧
    1#4 ≠ 0#4 ∧ 1#4 ≠ 2#4 ∧ 3#4 ≠ 0#4 ∧ 3#4 ≠ 2#4 ∧ 15#4 ≠ 0#4 ∧ 15#4 ≠ 2#4 := by decide

/-- NoRouteInstructionsComplete, NoRouteInstructionsFrame, IgnoredBitsHaveNoEffect: the first and the last form. -/
theorem witness_no_route_forms :
    (∃ f ∈ noRouteForms, f.2 = 1#4 ∧ ∃ t, exec (f.1 kNoCD 0#5 0#16 0#16) State.reset = .next t) ∧
    (∃ f ∈ noRouteForms, f.2 = 15#4 ∧ ∃ t, exec (f.1 kBad 0#5 0#16 0#16) State.reset = .next t) :=
  ⟨⟨noRouteForms[0], List.getElem_mem _, rfl, _, rfl⟩, ⟨noRouteForms[27], List.getElem_mem _, rfl, _, rfl⟩⟩

/-- GroupZeroFrame: both versions, accepted and rejected. -/
theorem witness_group_zero_runs :
    (∃ t, exec (.g0a kAll ⟨false, false, false, 3#2⟩ 1#8 203#8 0#8 0#8) State.reset = .next t) ∧
    (∃ t, exec (.g0a kBad ⟨false, false, false, 3#2⟩ 1#8 203#8 0#8 0#8) State.reset = .next t) ∧
    (∃ t, exec (.g0b kNoC ⟨false, false, false, 0#2⟩ 0#16 0#8 0#8) State.reset = .next t) :=
  ⟨⟨_, rfl⟩, ⟨_, rfl⟩, ⟨_, rfl⟩⟩

/-- VersionBReachesOnlyTheLowerHalf, GroupTwoFrame: the first cell of the upper half, and both versions. -/
theorem witness_group_two_runs :
    (∃ t, exec (.g2a kAll ⟨false, 15#4⟩ 0#8 0#8 0#8 0#8) State.reset = .next t) ∧
    (∃ t, exec (.g2b kNoC ⟨true, 15#4⟩ 0#16 0#8 0#8) State.reset = .next t) ∧ 32 ≤ (32 : Fin 64).val ∧
    (false = State.reset.station.rtAb) := ⟨⟨_, rfl⟩, ⟨_, rfl⟩, by decide, rfl⟩

/-- ToggleFlipClearsRadioText: a flip and an equal toggle, at the first and the last segment: cells on each side of it, its
first and its last cell, and an accepted and a rejected group. -/
theorem witness_toggle :
    true ≠ (withText 'x' false).station.rtAb ∧ true = (withText 'x' true).station.rtAb ∧
    (4 * (0#4).toNat + 4 ≤ (4 : Fin 64).val) ∧ ((59 : Fin 64).val < 4 * (15#4).toNat) ∧
    (2 * (15#4).toNat + 2 ≤ (32 : Fin 64).val) ∧
    (0 < 2 ∧ (0 : Fin 64).val = 2 * (0#4).toNat + 0) ∧ (1 < 2 ∧ (31 : Fin 64).val = 2 * (15#4).toNat + 1) ∧
    (3 < 4 ∧ (63 : Fin 64).val = 4 * (15#4).toNat + 3) ∧
    passes (.g2a kAll ⟨true, 15#4⟩ 0#8 1#8 2#8 3#8) = true ∧ passes (.g2b kNoC ⟨true, 15#4⟩ 0#16 0#8 1#8) = true ∧
    passes (.g2a kNoC ⟨true, 15#4⟩ 0#8 1#8 2#8 3#8) = false := by decide

/-- NeededBlocksByRoute: A and B at their thresholds pass, for either value of GATE_CD_ALWAYS. -/
theorem witness_needed_blocks :
    gatePass false 2#4 false kAll = true ∧ gatePass true 2#4 false kAll = true ∧
    gatePass false 4#4 false kNoCD = true := by decide

/-- SegmentCharactersGoToTheirCells: the last character of the last segment of each version. -/
theorem witness_segment_positions :
    3 < [0#8, 1#8, 2#8, 3#8].length ∧ 4 * (15#4).toNat + 3 = 63 ∧
    1 < [0#8, 1#8].length ∧ 2 * (15#4).toNat + 1 = 31 := by decide

/-- AfFrequencyOfACode: both ends of the range. -/
theorem witness_af_codes : (1 ≤ 1 ∧ 1 ≤ 203) ∧ (1 ≤ 203 ∧ 203 ≤ 203) ∧ (1 ≤ 202 ∧ 202 < 203) := by decide

/-- ExtendedAfCodesAreNotInterpreted: code 0 and both ends of the reserved range. -/
theorem witness_extended_codes :
    (0#8).toNat = 0 ∧ 204 ≤ (204#8).toNat ∧ 204 ≤ (255#8).toNat ∧
    passes (.g0a kAll ⟨false, false, false, 0#2⟩ 255#8 255#8 0#8 0#8) = true := by decide

/-- GroupZeroAFeedsItsTwoAfCodes, OnlyBlockCOfGroupZeroAReachesTheAfSet: an instruction that is no G0A, of another row. -/
theorem witness_not_g0a :
    (∀ k p af1 af2 c1 c2, Instr.g0b kNoC ⟨false, false, false, 0#2⟩ 0#16 0#8 0#8 ≠ .g0a k p af1 af2 c1 c2) ∧
    rowOf (.g0b kNoC ⟨false, false, false, 0#2⟩ 0#16 0#8 0#8) ≠ (0#4, false) := by
  refine ⟨?_, by decide⟩
  intros
  simp

/-- AfAndSeenOnlyGrow: a state in which the bits are set. -/
theorem witness_bits_set :
    afHas (withAf (1#203 <<< 202)).station 203 = true ∧
    seenHas { State.reset.station with seen := 0x8000#16 } 15#4 = true := by decide

/-- DecodingTwiceIsDecodingOnce, OnlyTheToggleClearRemovesContent: a group that clears and writes. -/
theorem witness_flip_runs : ∃ t, exec (.g2a kAll ⟨true, 0#4⟩ 0x48#8 0x69#8 0#8 0#8) (withText 'x' false) = .next t :=
  ⟨_, rfl⟩

/-- StepKeepsCellsRenderable: a state with a written cell. -/
theorem witness_cells_renderable :
    CellsRenderable { State.reset.station with rt := Vector.replicate 64 (charRom 0x41#8) } := by
  constructor
  · intro j
    left
    simp [State.reset, freshStation]
  · intro j
    right
    exact ⟨0x41#8, by simp⟩

/-- StepKeepsHistory: the reset station fits its draw, and a step follows, with RESET the next move and without. -/
theorem witness_history :
    HistoryFits (Config.init 0) State.reset.station ∧ (∃ t, step (s0With scenario) = .next t) ∧
    (s0With scenario).pending.head? ≠ some .rst ∧
    ({ State.reset with pending := [.rst] } : State).pending.head? = some .rst := by
  refine ⟨?_, ⟨_, rfl⟩, by decide, rfl⟩
  constructor <;> (intro _; simp [State.reset, freshStation])

/-- BlankTextHidesTheStoredToggle: two states that differ in RT_AB only, over blank text. -/
theorem witness_blank_text : SameButBlankToggle (withText blank false) (withText blank true) := ⟨rfl, .inr rfl⟩

/-- BlankTextHidesTheStoredToggle: text that is not blank, with the same toggle. -/
theorem witness_same_toggle : SameButBlankToggle (withText 'x' true) (withText 'x' true) := ⟨rfl, .inl rfl⟩

/-- GroupZeroWritesThePsPair, GroupZeroFrame, PsRouteOrderCannotBeObserved: the cells of the first and the last pair, the
cells beside them, and sub-addresses other than the selected one. -/
theorem witness_ps_cells :
    (0 : Fin 8).val = 2 * (0#2).toNat ∧ (1 : Fin 8).val = 2 * (0#2).toNat + 1 ∧
    (6 : Fin 8).val = 2 * (3#2).toNat ∧ (7 : Fin 8).val = 2 * (3#2).toNat + 1 ∧
    ((2 : Fin 8).val ≠ 2 * (0#2).toNat ∧ (2 : Fin 8).val ≠ 2 * (0#2).toNat + 1) ∧
    ((5 : Fin 8).val ≠ 2 * (3#2).toNat ∧ (5 : Fin 8).val ≠ 2 * (3#2).toNat + 1) ∧
    (3#2 ≠ 0#2 ∧ 3#2 ≠ 1#2 ∧ 3#2 ≠ 2#2 ∧ 0#2 ≠ 3#2) := by decide

/-- AcceptedGroupMarksItsTypeSeen and the frames: a group type other than the instruction's, and an AF code other than
the group's two. -/
theorem witness_other_bits :
    15#4 ≠ gtOf (.g0a kAll ⟨false, false, false, 0#2⟩ 1#8 203#8 0#8 0#8) ∧ 15#4 ≠ 2#4 ∧
    (2 ≠ (1#8).toNat ∧ 2 ≠ (203#8).toNat) := by decide

/-- OnlyTheToggleClearRemovesContent, VersionBReachesOnlyTheLowerHalf: a toggle that differs from the stored one. -/
theorem witness_toggle_differs :
    toggleOf (.g2b kNoC ⟨true, 0#4⟩ 0#16 0#8 0#8) = some true ∧ true ≠ State.reset.station.rtAb := by decide

/-- IgnoredBitsHaveNoEffect: two headers that differ in B[4] only. -/
theorem witness_ignored_bits :
    (⟨true, false, false, 1#2⟩ : PsHeader).addr = (⟨false, false, false, 1#2⟩ : PsHeader).addr ∧
    diBitOf ⟨true, false, false, 1#2⟩ = diBitOf ⟨false, false, false, 1#2⟩ := ⟨rfl, rfl⟩

end Sys2Proof.Tests
end

section
/-! PROOFS. AF and SEEN only grow (R38): what an accepted group leaves in the two sets, and O43 from it. -/

namespace Sys2Proof.Proofs

open Sys2Proof.Machine Sys2Proof.Laws

/-! ### AF -/

/-- The AF set as a predicate depends on the register AF alone. -/
theorem afHas_congr {st st' : Station} (h : st'.af = st.af) (c : Nat) : afHas st' c = afHas st c := by
  simp only [afHas, h]

theorem afHas_afFeed_of_afHas {st : Station} {n : Nat} (c : Code) (h : afHas st n = true) :
    afHas (afFeed c st) n = true := by
  simp [afHas_afFeed, h]

theorem afHas_afRoute_of_afHas {st : Station} {n : Nat} (af1 af2 : Code) (h : afHas st n = true) :
    afHas (afRoute af1 af2 st) n = true :=
  afHas_afFeed_of_afHas af2 (afHas_afFeed_of_afHas af1 h)

/-- No route clears an AF bit: G0A feeds two codes after PS_ROUTE, every other route leaves AF alone. -/
theorem afHas_routeOf_of_afHas {st : Station} {n : Nat} (i : Instr) (h : afHas st n = true) :
    afHas (routeOf i st) n = true := by
  cases i with
  | g0a k p af1 af2 c1 c2 =>
    exact afHas_afRoute_of_afHas af1 af2 ((afHas_congr (psRoute_af p c1 c2 st) n).trans h)
  | g0b k p blkC c1 c2 => exact (afHas_congr (psRoute_af p c1 c2 st) n).trans h
  | g2a k r c1 c2 c3 c4 => exact (afHas_congr (rtRouteA_af r c1 c2 c3 c4 st) n).trans h
  | g2b k r blkC c1 c2 => exact (afHas_congr (rtRouteB_af r c1 c2 st) n).trans h
  | _ => exact h

/-- The common fields before the route and the SEEN mark after it leave AF alone. -/
theorem afHas_acceptedStation_of_afHas {st : Station} {n : Nat} (i : Instr) (h : afHas st n = true) :
    afHas (acceptedStation (gtOf i) (instrCommon i) (routeOf i) st) n = true := by
  have hk : afHas (writeCommon (instrCommon i) st) n = true := (afHas_congr (writeCommon_af _ _) n).trans h
  exact (afHas_congr (markSeen_af _ _) n).trans (afHas_routeOf_of_afHas i hk)

/-! ### SEEN -/

/-- No route touches SEEN (R134 alone writes it). -/
@[simp] theorem routeOf_seen (i : Instr) (st : Station) : (routeOf i st).seen = st.seen := by
  cases i with
  | g0a k p af1 af2 c1 c2 => simp [routeOf]
  | g0b k p blkC c1 c2 => exact psRoute_seen p c1 c2 st
  | g2a k r c1 c2 c3 c4 => exact rtRouteA_seen r c1 c2 c3 c4 st
  | g2b k r blkC c1 c2 => exact rtRouteB_seen r c1 c2 st
  | _ => rfl

/-- An accepted group adds its own type to SEEN and nothing else. -/
theorem seenHas_acceptedStation (i : Instr) (st : Station) (g : BitVec 4) :
    seenHas (acceptedStation (gtOf i) (instrCommon i) (routeOf i) st) g = (seenHas st g || decide (g = gtOf i)) := by
  rw [acceptedStation, seenHas_markSeen]
  simp [seenHas]

/-! ### Both outcomes of a group -/

/-- Settles O43: an accepted group only adds to the two sets, a rejected one leaves the station state as it is. -/
theorem afAndSeenOnlyGrow : Obligations.AfAndSeenOnlyGrow := by
  intro i s t hexec
  obtain ⟨-, haccept⟩ | ⟨-, hreject⟩ := exec_cases i s
  · cases haccept.symm.trans hexec
    refine ⟨fun c hc => afHas_acceptedStation_of_afHas i hc, fun g hg => ?_⟩
    simp [seenHas_acceptedStation, hg]
  · cases hreject.symm.trans hexec
    exact ⟨fun _ hc => hc, fun _ hg => hg⟩

end Sys2Proof.Proofs
end

section
/-! PROOFS. What decoding a group gives (R81, R88): its row, its common operands and its route, for later proofs. -/

namespace Sys2Proof.Proofs

open Sys2Proof.Machine Sys2Proof.Laws

/-! ### The row, the common operands and the route of a decoded group -/

theorem rowOf_decodeRow (gt : BitVec 4) (ver : Bool) (g : Group) : rowOf (decodeRow gt ver g) = (gt, ver) := by
  obtain ⟨n, hn⟩ := gt
  interval_cases n <;> cases ver <;> rfl

theorem instrCommon_decodeRow (gt : BitVec 4) (ver : Bool) (g : Group) :
    instrCommon (decodeRow gt ver g) = commonOf g := by
  obtain ⟨n, hn⟩ := gt
  interval_cases n <;> cases ver <;> rfl

/-- No route reads block A (R81). -/
theorem routeOf_decodeRow_blockA (gt : BitVec 4) (ver : Bool) (g : Group) (a : Block) :
    routeOf (decodeRow gt ver { g with a := a }) = routeOf (decodeRow gt ver g) := by
  obtain ⟨n, hn⟩ := gt
  interval_cases n <;> cases ver <;> rfl

@[simp] theorem rowOf_decode (g : Group) : rowOf (decode g) = (groupTypeBits g.b, versionBit g.b) :=
  rowOf_decodeRow _ _ g

@[simp] theorem gtOf_decode (g : Group) : gtOf (decode g) = groupTypeBits g.b :=
  congrArg Prod.fst (rowOf_decode g)

@[simp] theorem verOf_decode (g : Group) : verOf (decode g) = versionBit g.b :=
  congrArg Prod.snd (rowOf_decode g)

@[simp] theorem instrCommon_decode (g : Group) : instrCommon (decode g) = commonOf g :=
  instrCommon_decodeRow _ _ g

theorem routeOf_decode_blockA (g : Group) (a : Block) :
    routeOf (decode { g with a := a }) = routeOf (decode g) :=
  routeOf_decodeRow_blockA _ _ g a

/-- The row of a decoded group says which arm of the dispatch map gave it. -/
theorem decode_eq_decodeRow {g : Group} {gt : BitVec 4} {ver : Bool} (h : rowOf (decode g) = (gt, ver)) :
    decode g = decodeRow gt ver g := by
  obtain ⟨rfl, rfl⟩ := Prod.mk.inj ((rowOf_decode g).symm.trans h)
  rfl

/-- The gate's verdict on a group, from its blocks. -/
theorem passes_decode (g : Group) :
    passes (decode g) = gatePass gateCdAlways (groupTypeBits g.b) (versionBit g.b) (commonOf g) := by
  simp [passes]

/-- Executing a group is DECODE with the row and the common operands read from its blocks. -/
theorem exec_decode (g : Group) (s : State) :
    exec (decode g) s = transact (groupTypeBits g.b) (versionBit g.b) (commonOf g) (routeOf (decode g)) s := by
  simp [exec_eq_transact]

end Sys2Proof.Proofs
end

section
/-! PROOFS. The dispatch map against the match and mask of the opcode table (R88), and O4 from it. -/

namespace Sys2Proof.Proofs

open Sys2Proof.Machine Sys2Proof.Laws Sys2Proof.Safety

/-! ### The mask 0xF800 -/

/-- The mask of every row keeps B[15:11] and clears the other bits. -/
theorem band_routeMask (b : Block) :
    b &&& 0xF800#16 = blockB (groupTypeBits b) (versionBit b) false 0#5 0#5 := by
  have hmask : ∀ i < 16, (0xF800#16).getLsbD i = decide (11 ≤ i) := by decide
  apply BitVec.eq_of_getLsbD_eq
  intro i hi
  rw [BitVec.getLsbD_and, hmask i hi]
  nth_rw 1 [← blockB_fields b]
  simp only [getLsbD_blockB]
  by_cases h : 11 ≤ i
  · simp [show ¬ i < 5 by omega, show ¬ i < 10 by omega, show i ≠ 10 by omega, h]
  · simp [show i ≠ 11 by omega, h]
    omega

/-- The match of a row: its type at B[15:12], its version at B[11], zeros below. -/
theorem blockB_eq_rowMatch (gt : BitVec 4) (ver : Bool) :
    blockB gt ver false 0#5 0#5 = (gt.setWidth 16 <<< 12) ||| ((BitVec.ofBool ver).setWidth 16 <<< 11) := by
  revert gt ver
  decide

/-- Block B matches a row under the mask exactly when it holds the row's type and version. -/
theorem band_routeMask_eq_iff (b : Block) (gt : BitVec 4) (ver : Bool) :
    b &&& 0xF800#16 = (gt.setWidth 16 <<< 12) ||| ((BitVec.ofBool ver).setWidth 16 <<< 11) ↔
      groupTypeBits b = gt ∧ versionBit b = ver := by
  rw [band_routeMask, ← blockB_eq_rowMatch]
  constructor
  · intro h
    have hgt := congrArg groupTypeBits h
    have hver := congrArg versionBit h
    simp only [groupTypeBits_blockB, versionBit_blockB] at hgt hver
    exact ⟨hgt, hver⟩
  · rintro ⟨rfl, rfl⟩
    rfl

/-- The dispatch map is the table's match and mask, for each of the 32 rows (R88). -/
theorem rowOf_decode_eq_iff (g : Group) (gt : BitVec 4) (ver : Bool) :
    rowOf (decode g) = (gt, ver) ↔
      g.b &&& 0xF800#16 = (gt.setWidth 16 <<< 12) ||| ((BitVec.ofBool ver).setWidth 16 <<< 11) := by
  rw [band_routeMask_eq_iff, rowOf_decode, Prod.mk.injEq]

/-! ### One route for each row -/

theorem decode_eq_g0a_iff (g : Group) :
    (∃ k p af1 af2 c1 c2, decode g = .g0a k p af1 af2 c1 c2) ↔ rowOf (decode g) = (0#4, false) :=
  ⟨fun ⟨_, _, _, _, _, _, h⟩ => congrArg rowOf h, fun h => ⟨_, _, _, _, _, _, decode_eq_decodeRow h⟩⟩

theorem decode_eq_g0b_iff (g : Group) :
    (∃ k p blkC c1 c2, decode g = .g0b k p blkC c1 c2) ↔ rowOf (decode g) = (0#4, true) :=
  ⟨fun ⟨_, _, _, _, _, h⟩ => congrArg rowOf h, fun h => ⟨_, _, _, _, _, decode_eq_decodeRow h⟩⟩

theorem decode_eq_g2a_iff (g : Group) :
    (∃ k r c1 c2 c3 c4, decode g = .g2a k r c1 c2 c3 c4) ↔ rowOf (decode g) = (2#4, false) :=
  ⟨fun ⟨_, _, _, _, _, _, h⟩ => congrArg rowOf h, fun h => ⟨_, _, _, _, _, _, decode_eq_decodeRow h⟩⟩

theorem decode_eq_g2b_iff (g : Group) :
    (∃ k r blkC c1 c2, decode g = .g2b k r blkC c1 c2) ↔ rowOf (decode g) = (2#4, true) :=
  ⟨fun ⟨_, _, _, _, _, h⟩ => congrArg rowOf h, fun h => ⟨_, _, _, _, _, decode_eq_decodeRow h⟩⟩

/-! ### The groups without a route -/

/-- Each of the 28 forms builds instructions of the type it is listed with. -/
theorem gtOf_noRouteForm (k : Common) (x : BitVec 5) (blkC blkD : Block) :
    ∀ f ∈ noRouteForms, gtOf (f.1 k x blkC blkD) = f.2 :=
  List.map_inj_left.1 rfl

theorem noRouteForm_type : ∀ f ∈ noRouteForms, f.2 ≠ 0#4 ∧ f.2 ≠ 2#4 := by decide

/-- The form that builds instructions of the row of `i`, if the list holds one. -/
def noRouteFormOf (i : Instr) : Option ((Common → BitVec 5 → Block → Block → Instr) × BitVec 4) :=
  noRouteForms.find? fun f => rowOf (f.1 (instrCommon i) 0#5 0#16 0#16) == rowOf i

/-- An instruction of a type other than 0 and 2 is built by the form of its row. -/
theorem noRouteFormOf_builds (i : Instr) (h0 : gtOf i ≠ 0#4) (h2 : gtOf i ≠ 2#4) :
    ∃ f, noRouteFormOf i = some f ∧ ∃ k x blkC blkD, i = f.1 k x blkC blkD := by
  cases i with
  | g0a => exact absurd rfl h0
  | g0b => exact absurd rfl h0
  | g2a => exact absurd rfl h2
  | g2b => exact absurd rfl h2
  | _ => exact ⟨_, rfl, _, _, _, _, rfl⟩

/-- The 28 forms are all instructions of a type other than 0 and 2 (R133). -/
theorem eq_noRouteForm_iff (i : Instr) :
    (∃ f ∈ noRouteForms, ∃ k x blkC blkD, i = f.1 k x blkC blkD) ↔ gtOf i ≠ 0#4 ∧ gtOf i ≠ 2#4 := by
  constructor
  · rintro ⟨f, hf, k, x, blkC, blkD, rfl⟩
    rw [gtOf_noRouteForm k x blkC blkD f hf]
    exact noRouteForm_type f hf
  · rintro ⟨h0, h2⟩
    obtain ⟨f, hfind, hbuild⟩ := noRouteFormOf_builds i h0 h2
    exact ⟨f, List.mem_of_find?_eq_some hfind, hbuild⟩

/-- Settles O4: masking block B leaves exactly the type and the version, which are the row that decoding takes. -/
theorem dispatchMapMatchesBlockB : Obligations.DispatchMapMatchesBlockB := by
  refine ⟨rowOf_decode_eq_iff, fun g => ?_, fun g => ?_, fun g => ?_, fun g => ?_, fun g => ?_⟩
  · exact (decode_eq_g0a_iff g).trans (rowOf_decode_eq_iff g 0#4 false)
  · exact (decode_eq_g0b_iff g).trans (rowOf_decode_eq_iff g 0#4 true)
  · exact (decode_eq_g2a_iff g).trans (rowOf_decode_eq_iff g 2#4 false)
  · exact (decode_eq_g2b_iff g).trans (rowOf_decode_eq_iff g 2#4 true)
  · rw [eq_noRouteForm_iff, gtOf_decode, groupTypeBits]

end Sys2Proof.Proofs
end

section
/-! PROOFS. Block A reaches PI alone (R81): every operation of an accepted group commutes with replacing PI, and O20
from it. -/

namespace Sys2Proof.Proofs

open Sys2Proof.Machine Sys2Proof.Laws

/-- A station with another PI. -/
def withPi (a : Block) (st : Station) : Station := { st with pi := a }

/-! ### Replacing PI commutes with every write of a route -/

theorem diUpdate_withPi (p : PsHeader) (a : Block) (st : Station) :
    diUpdate p (withPi a st) = withPi a (diUpdate p st) := by
  unfold diUpdate
  obtain h | h | h | h := addr_cases p.addr <;> rw [h] <;> rfl

theorem psRoute_withPi (p : PsHeader) (c1 c2 : Code) (a : Block) (st : Station) :
    psRoute p c1 c2 (withPi a st) = withPi a (psRoute p c1 c2 st) := by
  rw [psRoute, diUpdate_withPi]
  rfl

theorem afFeed_withPi (c : Code) (a : Block) (st : Station) :
    afFeed c (withPi a st) = withPi a (afFeed c st) := by
  unfold afFeed
  split <;> rfl

theorem afRoute_withPi (af1 af2 : Code) (a : Block) (st : Station) :
    afRoute af1 af2 (withPi a st) = withPi a (afRoute af1 af2 st) := by
  rw [afRoute, afFeed_withPi, afFeed_withPi, ← afRoute]

theorem abCheck_withPi (ab : Bool) (a : Block) (st : Station) :
    abCheck ab (withPi a st) = withPi a (abCheck ab st) := by
  have hab : (withPi a st).rtAb = st.rtAb := rfl
  unfold abCheck
  rw [hab]
  split <;> rfl

theorem rtRouteA_withPi (r : RtHeader) (c1 c2 c3 c4 : Code) (a : Block) (st : Station) :
    rtRouteA r c1 c2 c3 c4 (withPi a st) = withPi a (rtRouteA r c1 c2 c3 c4 st) := by
  rw [rtRouteA, abCheck_withPi]
  rfl

theorem rtRouteB_withPi (r : RtHeader) (c1 c2 : Code) (a : Block) (st : Station) :
    rtRouteB r c1 c2 (withPi a st) = withPi a (rtRouteB r c1 c2 st) := by
  rw [rtRouteB, abCheck_withPi]
  rfl

/-- No route reads PI, and none writes it. -/
theorem routeOf_withPi (i : Instr) (a : Block) (st : Station) :
    routeOf i (withPi a st) = withPi a (routeOf i st) := by
  cases i with
  | g0a k p af1 af2 c1 c2 => simp only [routeOf, psRoute_withPi, afRoute_withPi]
  | g0b k p blkC c1 c2 => exact psRoute_withPi p c1 c2 a st
  | g2a k r c1 c2 c3 c4 => exact rtRouteA_withPi r c1 c2 c3 c4 a st
  | g2b k r blkC c1 c2 => exact rtRouteB_withPi r c1 c2 a st
  | _ => rfl

@[simp] theorem routeOf_pi (i : Instr) (st : Station) : (routeOf i st).pi = st.pi := by
  cases i with
  | g0a k p af1 af2 c1 c2 => simp [routeOf]
  | g0b k p blkC c1 c2 => exact psRoute_pi p c1 c2 st
  | g2a k r c1 c2 c3 c4 => exact rtRouteA_pi r c1 c2 c3 c4 st
  | g2b k r blkC c1 c2 => exact rtRouteB_pi r c1 c2 st
  | _ => rfl

/-! ### The accepted group -/

/-- Another block A in an accepted group is another PI in the station it leaves. -/
theorem acceptedStation_blockA (gt : BitVec 4) (g : Group) (a : Block) (i : Instr) (st : Station) :
    acceptedStation gt (commonOf { g with a := a }) (routeOf i) st =
      withPi a (acceptedStation gt (commonOf g) (routeOf i) st) :=
  congrArg (markSeen gt) (routeOf_withPi i a (writeCommon (commonOf g) st))

/-- Settles O20: the gate and the route do not read block A, so another block A passes the same gate and leaves another
PI. -/
theorem blockAIsStoredAsPiAlone : Obligations.BlockAIsStoredAsPiAlone := by
  intro g a s hpass
  rw [passes_decode] at hpass
  refine ⟨_, (exec_decode g s).trans (transact_of_pass _ s hpass), ?_, ?_⟩
  · simp [acceptedStation, commonOf]
  · have hpass' : gatePass gateCdAlways (groupTypeBits g.b) (versionBit g.b) (commonOf { g with a := a }) = true :=
      hpass
    rw [exec_decode, routeOf_decode_blockA, transact_of_pass _ s hpass', acceptedStation_blockA]
    rfl

end Sys2Proof.Proofs
end

section
/-! PROOFS. The confidence gate (R110 to R114): the comparator and its thresholds, the verdict that ACCEPT shows, and
that no DECODE reads ACCEPT; O12, O13, O15 and O16 from them. -/

namespace Sys2Proof.Proofs

open Sys2Proof.Machine Sys2Proof.Laws

/-! ### The comparator -/

/-- A level above the threshold is not usable. -/
theorem usable_eq_false_of_lt {q th : Level} (h : th.toNat < q.toNat) : usable q th = false := by
  rw [Bool.eq_false_iff, ne_eq, usable_iff]
  exact Nat.not_le.2 h

/-! ### The verdict -/

/-- PASS asks of every needed block, and of no other, that its level is usable (R113). -/
theorem gatePass_iff_usable (always : Bool) (gt : BitVec 4) (ver : Bool) (k : Common) :
    gatePass always gt ver k = true ↔
      usable k.qa thA = true ∧ usable k.qb thB = true ∧
        (needC always gt ver = true → usable k.qc thC = true) ∧
        (needD always gt = true → usable k.qd thD = true) := by
  simp only [usable_iff]
  exact gatePass_iff always gt ver k

/-- ACCEPT shows the gate's verdict after every DECODE (R114, R115). -/
theorem exec_accept (i : Instr) (s : State) : ∃ t, exec i s = .next t ∧ t.accept = some (passes i) := by
  obtain ⟨hpass, hexec⟩ | ⟨hfail, hexec⟩ := exec_cases i s
  · exact ⟨_, hexec, congrArg some hpass.symm⟩
  · exact ⟨_, hexec, congrArg some hfail.symm⟩

/-! ### ACCEPT is written and never read -/

theorem transact_withAccept (gt : BitVec 4) (ver : Bool) (k : Common) (route : Station → Station) (s : State)
    (a : Option Bool) : transact gt ver k route { s with accept := a } = transact gt ver k route s := by
  unfold transact
  split <;> rfl

theorem exec_withAccept (i : Instr) (s : State) (a : Option Bool) : exec i { s with accept := a } = exec i s := by
  rw [exec_eq_transact, exec_eq_transact, transact_withAccept]

theorem exec_of_fail {i : Instr} (s : State) (h : passes i = false) :
    exec i s = .next { s with accept := some false } :=
  (exec_eq_transact i s).trans (transact_of_fail (routeOf i) s h)

/-! ### The statements -/

/-- Settles O15: ACCEPT is the verdict of the gate, and the verdict is the conjunction over the needed blocks. -/
theorem verdictOfEveryGroup : Obligations.VerdictOfEveryGroup := by
  intro i s k pass
  have hverdict : passes i = true ↔ pass := gatePass_iff_usable gateCdAlways (gtOf i) (verOf i) k
  obtain ⟨t, hexec, haccept⟩ := exec_accept i s
  refine ⟨t, hexec, ?_, ?_⟩
  · rw [haccept, Option.some_inj, hverdict]
  · rw [haccept, Option.some_inj, ← hverdict, Bool.not_eq_true]

/-- Settles O16: rejection writes ACCEPT alone, which no later DECODE reads. -/
theorem rejectionChangesNothing : Obligations.RejectionChangesNothing :=
  fun _ s hfail => ⟨exec_of_fail s hfail, fun j => exec_withAccept j s (some false)⟩

/-- Settles O12: the comparison is that of the unsigned values, and the table is its eight instances. -/
theorem usableComparesUnsigned : Obligations.UsableComparesUnsigned :=
  ⟨usable_iff, by decide⟩

/-- Settles O13: no threshold reaches level 3, so level 3 is above each of them. -/
theorem thresholdsAndLevelThree : Obligations.ThresholdsAndLevelThree := by
  have hstrictest : ∀ th ∈ [thA, thC, thD], thB.toNat < th.toNat := by decide
  have hbelow : ∀ th ∈ [thA, thB, thC, thD], th.toNat < (3#2).toNat := by decide
  exact ⟨rfl, rfl, rfl, rfl, hstrictest, fun th hth => usable_eq_false_of_lt (hbelow th hth)⟩

end Sys2Proof.Proofs
end

section
/-! PROOFS. What an accepted group writes whatever its type is, and all that it writes when its type has no route (R133,
R134); O21 and O22 from them. -/

namespace Sys2Proof.Proofs

open Sys2Proof.Machine Sys2Proof.Laws

/-- An accepted group has the whole effect of its route between the common fields and SEEN (R115, R130). -/
theorem exec_of_pass {i : Instr} (s : State) (h : passes i = true) :
    exec i s = .next { s with
      station := acceptedStation (gtOf i) (instrCommon i) (routeOf i) s.station, accept := some true } :=
  (exec_eq_transact i s).trans (transact_of_pass (routeOf i) s h)

/-! ### The types without a route -/

theorem readsPayload_eq_false {gt : BitVec 4} (h0 : gt ≠ 0#4) (h2 : gt ≠ 2#4) : readsPayload gt = false := by
  simp [readsPayload, h0, h2]

/-- A type other than 0 and 2 needs neither block C nor block D, so the gate asks for blocks A and B alone (R112). -/
theorem passes_iff_of_noRoute {i : Instr} (h0 : gtOf i ≠ 0#4) (h2 : gtOf i ≠ 2#4) :
    passes i = true ↔ (instrCommon i).qa.toNat ≤ 2 ∧ (instrCommon i).qb.toNat ≤ 1 := by
  have hread : readsPayload (gtOf i) = false := readsPayload_eq_false h0 h2
  rw [passes, gatePass_iff]
  simp [needC, needD, gateCdAlways, hread]

/-- Only types 0 and 2 have a route that writes (R132, R133). -/
theorem routeOf_eq_id {i : Instr} (h0 : gtOf i ≠ 0#4) (h2 : gtOf i ≠ 2#4) : routeOf i = id := by
  cases i with
  | g0a => exact absurd rfl h0
  | g0b => exact absurd rfl h0
  | g2a => exact absurd rfl h2
  | g2b => exact absurd rfl h2
  | _ => rfl

/-- With no route, an accepted group leaves the common fields and its SEEN bit. -/
theorem acceptedStation_id (gt : BitVec 4) (k : Common) (st : Station) :
    acceptedStation gt k id st =
      { st with pi := k.pi, tp := k.tp, pty := k.pty, seen := st.seen ||| (1#16 <<< gt.toNat) } := rfl

/-- The exact next state of a group of a type other than 0 and 2 with usable blocks A and B (R133). -/
theorem exec_of_noRoute {i : Instr} (s : State) (h0 : gtOf i ≠ 0#4) (h2 : gtOf i ≠ 2#4)
    (hqa : (instrCommon i).qa.toNat ≤ 2) (hqb : (instrCommon i).qb.toNat ≤ 1) :
    exec i s = .next { s with
      station := { s.station with
        pi := (instrCommon i).pi, tp := (instrCommon i).tp, pty := (instrCommon i).pty
        seen := s.station.seen ||| (1#16 <<< (gtOf i).toNat) }
      accept := some true } := by
  rw [exec_of_pass s ((passes_iff_of_noRoute h0 h2).2 ⟨hqa, hqb⟩), routeOf_eq_id h0 h2, acceptedStation_id]

/-! ### The statements -/

/-- Settles O21: no route writes SEEN, so an accepted group adds its own type alone; a rejected one changes no station
element. -/
theorem acceptedGroupMarksItsTypeSeen : Obligations.AcceptedGroupMarksItsTypeSeen := by
  refine ⟨fun i s hpass => ⟨_, exec_of_pass s hpass, ?_, fun g hg => ?_⟩,
    fun i s hfail => ⟨_, exec_of_fail s hfail, rfl⟩, fun _ _ _ _ _ _ => rfl, fun _ _ _ _ _ => rfl⟩
  · simp [seenHas_acceptedStation]
  · simp [seenHas_acceptedStation, hg]

/-- Settles O22: a decoded group has the type and the common operands of its blocks, so this is the next state of every
instruction without a route, read at them. -/
theorem otherGroupTypesWriteOnlyCommonFieldsAndSeen : Obligations.OtherGroupTypesWriteOnlyCommonFieldsAndSeen := by
  intro g s h0 h2 hqa hqb
  have hexec := exec_of_noRoute (i := decode g) s
  rw [gtOf_decode, instrCommon_decode] at hexec
  exact hexec h0 h2 hqa hqb

end Sys2Proof.Proofs
end

section
/-! PROOFS. PS_ROUTE (R152 to R154): the two cells of its sub-address take the characters of block D, the selected DI
flag takes a value of the header alone, and the two writes commute; O27 and O36 from them. -/

namespace Sys2Proof.Proofs

open Sys2Proof.Machine Sys2Proof.Laws

/-! ### The cells of PS -/

/-- The three cases of R153 for a cell of PS: the lower of the pair, the upper, any other. -/
theorem writeCells_pair_getElem {n : Nat} (buf : Vector DisplayChar n) (start : Nat) (x y : DisplayChar) (j : Fin n) :
    (writeCells buf start [x, y])[j] = if j.val = start then x else if j.val = start + 1 then y else buf[j] := by
  obtain ⟨j, hj⟩ := j
  rw [Fin.getElem_fin, Fin.getElem_fin]
  by_cases hlow : j = start
  · subst hlow
    rw [if_pos rfl]
    exact writeCells_of_inside [x, y] buf j 0 Nat.two_pos hj
  by_cases hhigh : j = start + 1
  · subst hhigh
    rw [if_neg hlow, if_pos rfl]
    exact writeCells_of_inside [x, y] buf start 1 Nat.one_lt_two hj
  · rw [if_neg hlow, if_neg hhigh]
    exact writeCells_of_outside [x, y] buf start j hj (by simp only [List.length_cons, List.length_nil]; omega)

/-- DI_UPDATE writes no cell, so PS_ROUTE leaves in PS what PS_WRITE does. -/
@[simp] theorem psRoute_ps (p : PsHeader) (c1 c2 : Code) (st : Station) :
    (psRoute p c1 c2 st).ps = writeCells st.ps (2 * p.addr.toNat) [charRom c1, charRom c2] := by
  simp [psRoute]

theorem psRoute_ps_getElem (p : PsHeader) (c1 c2 : Code) (st : Station) (j : Fin 8) :
    (psRoute p c1 c2 st).ps[j] =
      if j.val = 2 * p.addr.toNat then charRom c1
      else if j.val = 2 * p.addr.toNat + 1 then charRom c2
      else st.ps[j] := by
  rw [psRoute_ps, writeCells_pair_getElem]

/-! ### The selected DI flag -/

/-- What DI_UPDATE writes (R152), from the header and the configuration. -/
def newDiFlag (p : PsHeader) : Bool := diFlag Config.diBit Config.diInv1 Config.diInv2 p

theorem diUpdate_eq_writeDi (p : PsHeader) (st : Station) : diUpdate p st = writeDi p.addr (newDiFlag p) st := rfl

@[simp] theorem psRoute_diSpty (p : PsHeader) (c1 c2 : Code) (st : Station) :
    (psRoute p c1 c2 st).diSpty = if p.addr = 0#2 then newDiFlag p else st.diSpty := by
  simp [psRoute, diUpdate_eq_writeDi]

@[simp] theorem psRoute_diComp (p : PsHeader) (c1 c2 : Code) (st : Station) :
    (psRoute p c1 c2 st).diComp = if p.addr = 1#2 then newDiFlag p else st.diComp := by
  simp [psRoute, diUpdate_eq_writeDi]

@[simp] theorem psRoute_diAh (p : PsHeader) (c1 c2 : Code) (st : Station) :
    (psRoute p c1 c2 st).diAh = if p.addr = 2#2 then newDiFlag p else st.diAh := by
  simp [psRoute, diUpdate_eq_writeDi]

@[simp] theorem psRoute_diSt (p : PsHeader) (c1 c2 : Code) (st : Station) :
    (psRoute p c1 c2 st).diSt = if p.addr = 3#2 then newDiFlag p else st.diSt := by
  simp [psRoute, diUpdate_eq_writeDi]

/-! ### The order of the two writes -/

/-- DI_UPDATE writes a flag and PS_WRITE cells, and neither reads what the other writes (R154). -/
theorem psWrite_diUpdate_comm (p : PsHeader) (c1 c2 : Code) (st : Station) :
    psWrite p.addr c1 c2 (diUpdate p st) = diUpdate p (psWrite p.addr c1 c2 st) := by
  rw [diUpdate_eq_writeDi, diUpdate_eq_writeDi]
  obtain h | h | h | h := addr_cases p.addr <;> rw [h] <;> rfl

/-! ### Group 0 as a whole -/

/-- In group 0 no step but PS_ROUTE writes PS: neither the common fields nor AF_ROUTE nor SEEN. -/
theorem acceptedStation_ps_of_groupZero {i : Instr} {k : Common} {p : PsHeader} {af1 af2 : Code} {blkC : Block}
    {c1 c2 : Code} (st : Station) (hi : i = .g0a k p af1 af2 c1 c2 ∨ i = .g0b k p blkC c1 c2) :
    (acceptedStation (gtOf i) (instrCommon i) (routeOf i) st).ps = (psRoute p c1 c2 st).ps := by
  obtain rfl | rfl := hi <;> simp [acceptedStation, routeOf]

/-- Both versions of group 0 carry the two character codes in block D, the first in the high byte (R61). -/
theorem encode_d_of_groupZero {i : Instr} {k : Common} {p : PsHeader} {af1 af2 : Code} {blkC : Block}
    {c1 c2 : Code} (hi : i = .g0a k p af1 af2 c1 c2 ∨ i = .g0b k p blkC c1 c2) :
    (encode i).d = blockOf c1 c2 := by
  obtain rfl | rfl := hi <;> rfl

/-! ### The statements -/

/-- Settles O27: block D holds the two codes, and an accepted group 0 leaves in PS what PS_ROUTE does. -/
theorem groupZeroWritesThePsPair : Obligations.GroupZeroWritesThePsPair := by
  intro i k p af1 af2 blkC c1 c2 s hi hpass
  rw [encode_d_of_groupZero hi]
  refine ⟨hiByte_blockOf c1 c2, loByte_blockOf c1 c2, _, exec_of_pass s hpass, ?_⟩
  simp only [acceptedStation_ps_of_groupZero s.station hi, psRoute_ps_getElem]
  refine ⟨fun j hlow => ?_, fun j hhigh => ?_, fun j hlow hhigh => ?_⟩
  · rw [if_pos hlow]
  · rw [if_neg (by omega), if_pos hhigh]
  · rw [if_neg hlow, if_neg hhigh]

/-- Settles O36: the two writes commute, and each selected cell and flag takes a value in which no state occurs. -/
theorem psRouteOrderCannotBeObserved : Obligations.PsRouteOrderCannotBeObserved := by
  intro p c1 c2 st st'
  refine ⟨rfl, psWrite_diUpdate_comm p c1 c2 st, fun j hj => ?_, fun h => ?_, fun h => ?_, fun h => ?_, fun h => ?_⟩
  · rw [psRoute_ps_getElem, psRoute_ps_getElem]
    obtain hlow | hhigh := hj
    · rw [if_pos hlow, if_pos hlow]
    · simp only [if_pos hhigh]
  · rw [psRoute_diSpty, psRoute_diSpty, if_pos h, if_pos h]
  · rw [psRoute_diComp, psRoute_diComp, if_pos h, if_pos h]
  · rw [psRoute_diAh, psRoute_diAh, if_pos h, if_pos h]
  · rw [psRoute_diSt, psRoute_diSt, if_pos h, if_pos h]

end Sys2Proof.Proofs
end

section
/-! PROOFS. Group 2 (R170 to R173), both versions as one form of a width: what an accepted group leaves in RT and RT_AB
and leaves alone besides; O31 and O32 from it. -/

namespace Sys2Proof.Proofs

open Sys2Proof.Machine Sys2Proof.Laws

/-- The group 2 instructions, each with its common operands, its header and the width of its segment (R173). -/
inductive GroupTwo : Instr → Common → RtHeader → Nat → Prop where
  | versionA (k : Common) (r : RtHeader) (c1 c2 c3 c4 : Code) : GroupTwo (.g2a k r c1 c2 c3 c4) k r 4
  | versionB (k : Common) (r : RtHeader) (blkC : Block) (c1 c2 : Code) : GroupTwo (.g2b k r blkC c1 c2) k r 2

namespace GroupTwo

variable {i : Instr} {k : Common} {r : RtHeader} {width : Nat}

/-! ### The operands -/

theorem gtOf_eq (h : GroupTwo i k r width) : gtOf i = 2#4 := by
  cases h <;> rfl

theorem instrCommon_eq (h : GroupTwo i k r width) : instrCommon i = k := by
  cases h <;> rfl

theorem charCodes_length (h : GroupTwo i k r width) : (charCodes i).length = width := by
  cases h <;> rfl

/-- Both versions check the toggle first and then write the segment of their width (R170, R171). -/
theorem routeOf_eq (h : GroupTwo i k r width) (st : Station) :
    routeOf i st = rtWrite width r.seg (charCodes i) (abCheck r.ab st) := by
  cases h <;> rfl

/-- No segment reaches past the buffer: SEG is at most 15 and the width at most 4 (R62, R173). -/
theorem cell_lt (h : GroupTwo i k r width) {n : Nat} (hn : n < width) : width * r.seg.toNat + n < 64 := by
  have hseg : r.seg.toNat < 16 := r.seg.isLt
  cases h <;> omega

/-! ### The accepted group -/

theorem acceptedStation_rtAb (h : GroupTwo i k r width) (st : Station) :
    (acceptedStation (gtOf i) (instrCommon i) (routeOf i) st).rtAb = r.ab := by
  simp [acceptedStation, h.routeOf_eq]

/-- The segment is written over the old text if the toggle is the stored one, over blanks if it differs (R172). -/
theorem acceptedStation_rt (h : GroupTwo i k r width) (st : Station) :
    (acceptedStation (gtOf i) (instrCommon i) (routeOf i) st).rt =
      writeCells (if r.ab = st.rtAb then st.rt else Vector.replicate 64 blank) (width * r.seg.toNat)
        ((charCodes i).map charRom) := by
  rw [acceptedStation, markSeen_rt, h.routeOf_eq, rtWrite_rt, abCheck_rt]
  rfl

theorem acceptedStation_rt_of_inside (h : GroupTwo i k r width) (st : Station) {n : Nat}
    (hn : n < (charCodes i).length) (hcell : width * r.seg.toNat + n < 64) :
    (acceptedStation (gtOf i) (instrCommon i) (routeOf i) st).rt[width * r.seg.toNat + n] =
      charRom (charCodes i)[n] := by
  have hn' : n < ((charCodes i).map charRom).length := by rwa [List.length_map]
  simp only [h.acceptedStation_rt, writeCells_of_inside _ _ _ n hn' hcell, List.getElem_map]

theorem acceptedStation_rt_of_outside (h : GroupTwo i k r width) (st : Station) (j : Fin 64)
    (hj : j.val < width * r.seg.toNat ∨ width * r.seg.toNat + width ≤ j.val) :
    (acceptedStation (gtOf i) (instrCommon i) (routeOf i) st).rt[j] =
      if r.ab = st.rtAb then st.rt[j] else blank := by
  have hj' : j.val < width * r.seg.toNat ∨
      width * r.seg.toNat + ((charCodes i).map charRom).length ≤ j.val := by
    rwa [List.length_map, h.charCodes_length]
  rw [h.acceptedStation_rt, Fin.getElem_fin, writeCells_of_outside _ _ _ _ j.isLt hj']
  split
  · rfl
  · exact Vector.getElem_replicate j.isLt

/-- Group 2 writes RT and RT_AB besides what every accepted group writes, so it leaves the elements of group 0 alone. -/
theorem acceptedStation_frame (h : GroupTwo i k r width) (st : Station) :
    let st' := acceptedStation (gtOf i) (instrCommon i) (routeOf i) st
    st'.ps = st.ps ∧ st'.af = st.af ∧ st'.diSpty = st.diSpty ∧ st'.diComp = st.diComp ∧
      st'.diAh = st.diAh ∧ st'.diSt = st.diSt := by
  simp [acceptedStation, h.routeOf_eq]

theorem acceptedStation_common (h : GroupTwo i k r width) (st : Station) :
    let st' := acceptedStation (gtOf i) (instrCommon i) (routeOf i) st
    st'.pi = k.pi ∧ st'.pty = k.pty ∧ st'.tp = k.tp := by
  simp [acceptedStation, h.routeOf_eq, h.instrCommon_eq]

theorem seenHas_acceptedStation_of_ne (h : GroupTwo i k r width) (st : Station) {g : BitVec 4} (hg : g ≠ 2#4) :
    seenHas (acceptedStation (gtOf i) (instrCommon i) (routeOf i) st) g = seenHas st g := by
  rw [seenHas_acceptedStation, h.gtOf_eq, decide_eq_false hg, Bool.or_false]

/-- An accepted group puts the n-th of its characters into cell width × SEG + n, which the buffer has (R173). -/
theorem exec_segment (h : GroupTwo i k r width) (s : State) (hpass : passes i = true) :
    ∃ t, exec i s = .next t ∧ ∀ n, (hn : n < (charCodes i).length) →
      ∃ _ : width * r.seg.toNat + n < 64, t.station.rt[width * r.seg.toNat + n] = charRom (charCodes i)[n] :=
  ⟨_, exec_of_pass s hpass, fun _ hn =>
    have hcell := h.cell_lt (hn.trans_eq h.charCodes_length)
    ⟨hcell, h.acceptedStation_rt_of_inside s.station hn hcell⟩⟩

end GroupTwo

/-! ### The statements -/

/-- Settles O32: both versions are group 2 forms, of widths 4 and 2. -/
theorem segmentCharactersGoToTheirCells : Obligations.SegmentCharactersGoToTheirCells :=
  ⟨fun k r c1 c2 c3 c4 s hpass => (GroupTwo.versionA k r c1 c2 c3 c4).exec_segment s hpass,
    fun k r blkC c1 c2 s hpass => (GroupTwo.versionB k r blkC c1 c2).exec_segment s hpass⟩

/-- Settles O31: an accepted group writes its segment over the text or over blanks, as the toggle says; a rejected one
changes no station element. -/
theorem toggleFlipClearsRadioText : Obligations.ToggleFlipClearsRadioText := by
  intro i k r c1 c2 c3 c4 blkC s width hi
  have h : GroupTwo i k r width := by
    obtain ⟨rfl, rfl⟩ | ⟨rfl, rfl⟩ := hi
    · exact .versionA k r c1 c2 c3 c4
    · exact .versionB k r blkC c1 c2
  cases hpass : passes i with
  | false => exact ⟨_, exec_of_fail s hpass, by simp⟩
  | true =>
    obtain ⟨hps, haf, hspty, hcomp, hah, hst⟩ := h.acceptedStation_frame s.station
    refine ⟨_, exec_of_pass s hpass, fun _ hflip => ⟨h.acceptedStation_rtAb s.station, fun j hj => ?_⟩,
      fun _ n j hn hj => ?_, fun _ hsame => ⟨(h.acceptedStation_rtAb s.station).trans hsame, fun j hj => ?_⟩,
      ⟨hps, haf, hspty, hcomp, hah, hst, fun g hg => h.seenHas_acceptedStation_of_ne s.station hg⟩,
      fun _ => h.acceptedStation_common s.station, nofun⟩
    · rw [h.acceptedStation_rt_of_outside s.station j hj, if_neg hflip]
    · have hn' : n < (charCodes i).length := h.charCodes_length.symm ▸ hn
      obtain rfl : j = ⟨width * r.seg.toNat + n, h.cell_lt hn⟩ := Fin.ext hj
      rw [List.getElem?_eq_getElem hn', Option.map_some, Fin.getElem_fin,
        h.acceptedStation_rt_of_inside s.station hn' (h.cell_lt hn)]
    · rw [h.acceptedStation_rt_of_outside s.station j hj, if_pos hsame]

end Sys2Proof.Proofs
end

section
/-! PROOFS. The AF set (R190, R193, R194): only the two codes of an accepted G0A reach AF, each if it is valid, and
they reach nothing else; O38, O41 and O42 from it. -/

namespace Sys2Proof.Proofs

open Sys2Proof.Machine Sys2Proof.Laws

/-! ### AF_ROUTE -/

/-- What AF_ROUTE leaves in the set: what was there, and each of the two codes that is valid (R190). -/
theorem afHas_afRoute_iff (af1 af2 : Code) (st : Station) (n : Nat) :
    afHas (afRoute af1 af2 st) n = true ↔ afHas st n = true ∨
      (n = af1.toNat ∧ 0 < n ∧ n < 204) ∨ (n = af2.toNat ∧ 0 < n ∧ n < 204) := by
  have hvalid : ∀ c : Code, (n = c.toNat ∧ afValid c = true) ↔ (n = c.toNat ∧ 0 < n ∧ n < 204) := by
    intro c
    rw [afValid_iff]
    omega
  simp only [afRoute, afHas_afFeed, Bool.or_eq_true, Bool.and_eq_true, decide_eq_true_eq, hvalid, or_assoc]

/-- AF_FEED writes no register but AF. -/
theorem afFeed_eq_withAf (c : Code) (st : Station) : afFeed c st = { st with af := (afFeed c st).af } := by
  unfold afFeed
  split <;> rfl

/-- AF_ROUTE writes no register but AF. -/
theorem afRoute_eq_withAf (af1 af2 : Code) (st : Station) :
    afRoute af1 af2 st = { st with af := (afRoute af1 af2 st).af } := by
  rw [afRoute, afFeed_eq_withAf af2, afFeed_eq_withAf af1]

/-- AF_ROUTE leaves in AF what its codes and the old AF give. -/
theorem afRoute_af_congr {st st' : Station} (af1 af2 : Code) (h : st'.af = st.af) :
    (afRoute af1 af2 st').af = (afRoute af1 af2 st).af := by
  simp only [afRoute, afFeed_af, h]

/-- A code 0 or 204 to 255 is dropped (R193). -/
theorem afFeed_of_extended {c : Code} (h : c.toNat = 0 ∨ 204 ≤ c.toNat) : afFeed c = id := by
  have hinvalid : ¬ afValid c = true := by
    rw [afValid_iff]
    omega
  funext st
  rw [afFeed, if_neg hinvalid, id]

/-! ### The instructions that reach AF -/

theorem rowOf_eq_g0a_iff (i : Instr) :
    rowOf i = (0#4, false) ↔ ∃ k p af1 af2 c1 c2, i = .g0a k p af1 af2 c1 c2 := by
  constructor
  · intro h
    cases i with
    | g0a k p af1 af2 c1 c2 => exact ⟨k, p, af1, af2, c1, c2, rfl⟩
    | _ => exact absurd h (by simp [rowOf])
  · rintro ⟨k, p, af1, af2, c1, c2, rfl⟩
    rfl

/-- Only the route of G0A writes AF (R190). -/
theorem routeOf_af_of_ne_g0a {i : Instr} (h : rowOf i ≠ (0#4, false)) (st : Station) :
    (routeOf i st).af = st.af := by
  cases i with
  | g0a => exact absurd rfl h
  | g0b k p blkC c1 c2 => exact psRoute_af p c1 c2 st
  | g2a k r c1 c2 c3 c4 => exact rtRouteA_af r c1 c2 c3 c4 st
  | g2b k r blkC c1 c2 => exact rtRouteB_af r c1 c2 st
  | _ => rfl

theorem exec_af_of_ne_g0a {i : Instr} {s t : State} (h : rowOf i ≠ (0#4, false)) (hexec : exec i s = .next t) :
    t.station.af = s.station.af := by
  obtain ⟨-, haccept⟩ | ⟨-, hreject⟩ := exec_cases i s
  · cases haccept.symm.trans hexec
    rw [acceptedStation, markSeen_af, routeOf_af_of_ne_g0a h, writeCommon_af]
  · cases hreject.symm.trans hexec
    rfl

/-! ### G0A -/

section GroupZeroA

variable (k : Common) (p : PsHeader) (af1 af2 c1 c2 : Code) (s : State)

theorem exec_g0a :
    exec (.g0a k p af1 af2 c1 c2) s = transact 0#4 false k (fun st => afRoute af1 af2 (psRoute p c1 c2 st)) s := rfl

theorem exec_g0b (blkC : Block) : exec (.g0b k p blkC c1 c2) s = transact 0#4 true k (psRoute p c1 c2) s := rfl

/-- An accepted G0A leaves in AF what AF_ROUTE makes of the old set: no character, flag or common field reaches it. -/
theorem acceptedStation_g0a_af (st : Station) :
    (acceptedStation 0#4 k (fun st => afRoute af1 af2 (psRoute p c1 c2 st)) st).af = (afRoute af1 af2 st).af := by
  rw [acceptedStation, markSeen_af]
  exact afRoute_af_congr af1 af2 (by rw [psRoute_af, writeCommon_af])

/-- Other AF codes in an accepted G0A change the register AF alone. -/
theorem acceptedStation_g0a_afCodes (af1' af2' : Code) (st : Station) :
    acceptedStation 0#4 k (fun st => afRoute af1' af2' (psRoute p c1 c2 st)) st =
      { acceptedStation 0#4 k (fun st => afRoute af1 af2 (psRoute p c1 c2 st)) st with
        af := (afRoute af1' af2' st).af } := by
  rw [← acceptedStation_g0a_af k p af1' af2' c1 c2 st]
  simp only [acceptedStation]
  rw [afRoute_eq_withAf af1', afRoute_eq_withAf af1]
  rfl

variable {k p af1 af2 c1 c2 s} {t : State}

/-- AF after a G0A, accepted or rejected: its header and its characters are no part of it. -/
theorem af_of_exec_g0a (h : exec (.g0a k p af1 af2 c1 c2) s = .next t) :
    t.station.af =
      if gatePass gateCdAlways 0#4 false k = true then (afRoute af1 af2 s.station).af else s.station.af := by
  rw [exec_g0a] at h
  split
  case isTrue hpass =>
    cases (transact_of_pass _ s hpass).symm.trans h
    exact acceptedStation_g0a_af k p af1 af2 c1 c2 s.station
  case isFalse hfail =>
    cases (transact_of_fail _ s (Bool.eq_false_iff.2 hfail)).symm.trans h
    rfl

/-- Other AF codes in a G0A change the register AF alone: neither ACCEPT nor any other write (R190). -/
theorem exec_g0a_afCodes {af1' af2' : Code} {t' : State} (h : exec (.g0a k p af1 af2 c1 c2) s = .next t)
    (h' : exec (.g0a k p af1' af2' c1 c2) s = .next t') :
    t' = { t with station := { t.station with af := t'.station.af } } := by
  rw [exec_g0a] at h h'
  cases hgate : gatePass gateCdAlways 0#4 false k with
  | true =>
    cases (transact_of_pass _ s hgate).symm.trans h
    cases (transact_of_pass _ s hgate).symm.trans h'
    rw [acceptedStation_g0a_afCodes k p af1 af2 c1 c2 af1' af2']
  | false =>
    cases (transact_of_fail _ s hgate).symm.trans h
    cases (transact_of_fail _ s hgate).symm.trans h'
    rfl

end GroupZeroA

/-- Version B needs no block that version A does not need (R112). -/
theorem gatePass_versionB_of_versionA {always : Bool} {gt : BitVec 4} {k : Common}
    (h : gatePass always gt false k = true) : gatePass always gt true k = true := by
  rw [gatePass_iff] at h ⊢
  obtain ⟨hqa, hqb, hqc, hqd⟩ := h
  refine ⟨hqa, hqb, fun hneed => hqc ?_, hqd⟩
  have halways : always = true := by simpa [needC] using hneed
  simp [needC, halways]

/-! ### The statements -/

/-- Settles O38: AF_ROUTE inserts the valid codes of a G0A and writes AF alone, and no other route writes AF. -/
theorem groupZeroAFeedsItsTwoAfCodes : Obligations.GroupZeroAFeedsItsTwoAfCodes := by
  refine ⟨fun k p af1 af2 c1 c2 s hpass => ⟨_, exec_of_pass s hpass, fun n => ?_⟩,
    fun i s t hrow hexec => exec_af_of_ne_g0a hrow hexec,
    fun k p af1 af2 af1' af2' c1 c2 s t t' h h' => exec_g0a_afCodes h h'⟩
  have haf := acceptedStation_g0a_af k p af1 af2 c1 c2 s.station
  exact (Bool.eq_iff_iff.1 (afHas_congr haf n)).trans (afHas_afRoute_iff af1 af2 s.station n)

/-- Settles O41: feeding such a code is the identity, as feeding 0 is, and a G0A that feeds nothing has the route of a
G0B. -/
theorem extendedAfCodesAreNotInterpreted : Obligations.ExtendedAfCodesAreNotInterpreted := by
  intro k p ext af c1 c2 blkC s hext
  have hdrop : afFeed ext = id := afFeed_of_extended hext
  have hzero : afFeed 0#8 = id := afFeed_of_extended (.inl rfl)
  simp only [exec_g0a, exec_g0b, afRoute, hdrop, hzero, id, true_and]
  intro (hpass : gatePass gateCdAlways 0#4 false k = true)
  rw [transact_of_pass _ s hpass, transact_of_pass _ s (gatePass_versionB_of_versionA hpass)]

/-- Settles O42: an instruction of the row of G0A is a G0A, every other row leaves AF alone, and what a G0A leaves in AF
is given by block C and the old set. -/
theorem onlyBlockCOfGroupZeroAReachesTheAfSet : Obligations.OnlyBlockCOfGroupZeroAReachesTheAfSet := by
  refine ⟨fun i s t hne hexec => exec_af_of_ne_g0a (fun hrow => ?_) hexec,
    fun k p af1 af2 c1 c2 c1' c2' s t t' h h' => (af_of_exec_g0a h).trans (af_of_exec_g0a h').symm⟩
  obtain ⟨k, p, af1, af2, c1, c2, rfl⟩ := (rowOf_eq_g0a_iff i).1 hrow
  exact hne k p af1 af2 c1 c2 rfl

end Sys2Proof.Proofs
end

section
/-! PROOFS. The frequency of an AF code (R191), and O40 from it. -/

namespace Sys2Proof.Proofs

open Sys2Proof.Machine

theorem f100_eq {c : Nat} (h : 1 ≤ c) : f100 c = 875 + c := by
  simp only [f100, afBase100, afStep100]
  omega

/-- Settles O40: the frequency is 875 + c, so its bounds and its order are those of the codes. -/
theorem afFrequencyOfACode : Obligations.AfFrequencyOfACode := by
  refine ⟨fun c hlow hhigh => ⟨rfl, f100_eq hlow, ?_, ?_⟩, fun c d hlow hlt hhigh => ?_, rfl, rfl, rfl, rfl⟩
  · rw [f100_eq hlow]
    omega
  · rw [f100_eq hlow]
    omega
  · rw [f100_eq hlow, f100_eq (hlow.trans hlt.le)]
    omega

end Sys2Proof.Proofs
end

section
/-! PROOFS. What the read ports of PS, RT, AF and SEEN list (R226 to R229). -/

namespace Sys2Proof.Proofs

open Sys2Proof.Machine

/-! ### The AF port -/

/-- No cell exists for code 0 (R28), so the codes listed are picked from 1 to 203. -/
theorem afCodes_eq_filter_range' (st : Station) : afCodes st = (List.range' 1 203).filter (afHas st) := by
  have hzero : ¬ afHas st 0 = true := by simp [afHas]
  rw [afCodes, List.range_eq_range', List.range'_succ, List.filter_cons_of_neg hzero]

theorem mem_afCodes {st : Station} {c : Nat} : c ∈ afCodes st ↔ 1 ≤ c ∧ c ≤ 203 ∧ afHas st c = true := by
  rw [afCodes_eq_filter_range', List.mem_filter, List.mem_range'_1, Nat.lt_one_add_iff, and_assoc]

theorem afCodes_pairwise_lt (st : Station) : (afCodes st).Pairwise (· < ·) := by
  rw [afCodes_eq_filter_range']
  exact List.Pairwise.filter (afHas st) (List.pairwise_lt_range' 1)

theorem afCodes_length_le (st : Station) : (afCodes st).length ≤ 203 := by
  rw [afCodes_eq_filter_range']
  exact (List.length_filter_le ..).trans_eq List.length_range'

theorem portAf_eq_map (s : State) : portAf s = (afCodes s.station).map (875 + ·) :=
  List.map_congr_left fun _ hc => f100_eq (mem_afCodes.1 hc).1

theorem mem_portAf {s : State} {f : Nat} :
    f ∈ portAf s ↔ ∃ c, 1 ≤ c ∧ c ≤ 203 ∧ afHas s.station c = true ∧ f = 875 + c := by
  simp only [portAf_eq_map, List.mem_map, mem_afCodes, and_assoc, eq_comm]

theorem portAf_pairwise_lt (s : State) : (portAf s).Pairwise (· < ·) := by
  rw [portAf_eq_map]
  exact (afCodes_pairwise_lt s.station).map _ fun _ _ hlt => Nat.add_lt_add_left hlt 875

/-- Settles O55: the codes of the set stand in the port in ascending order, each moved up by 875. -/
theorem afPortListsTheSetAscending : Obligations.AfPortListsTheSetAscending := by
  intro s
  have hlength : (portAf s).length ≤ 203 := (List.length_map f100).trans_le (afCodes_length_le s.station)
  exact ⟨fun _ => mem_portAf, portAf_pairwise_lt s, (portAf_pairwise_lt s).nodup, hlength, rfl⟩

/-! ### The SEEN port -/

theorem portSeen_nodup (s : State) : (portSeen s).Nodup := List.nodup_range.filter _

/-- Every number below 16 is a group type, so a listed number is a type whose bit is set. -/
theorem mem_portSeen {s : State} {g : Nat} :
    g ∈ portSeen s ↔ ∃ t : BitVec 4, g = t.toNat ∧ seenHas s.station t = true := by
  rw [portSeen, List.mem_filter, List.mem_range]
  constructor
  · rintro ⟨hg, hset⟩
    have htype : (BitVec.ofNat 4 g).toNat = g := Nat.mod_eq_of_lt hg
    exact ⟨BitVec.ofNat 4 g, htype.symm, by rwa [seenHas, htype]⟩
  · rintro ⟨t, rfl, hset⟩
    exact ⟨t.isLt, hset⟩

/-- Settles O56: a filtered range repeats nothing, and it holds exactly the types whose bit is set. -/
theorem seenPortReturnsTheTypesSeen : Obligations.SeenPortReturnsTheTypesSeen :=
  fun s => ⟨portSeen_nodup s, fun _ => mem_portSeen⟩

/-! ### The PS and RT ports -/

theorem toList_getElem?_fin {n : Nat} (cells : Vector DisplayChar n) (j : Fin n) :
    cells.toList[j.val]? = some cells[j] := by
  rw [Vector.getElem?_toList]
  exact Vector.getElem?_eq_getElem j.isLt

/-- Settles O53: the port is the list of the cells of PS. -/
theorem psPortReturnsEightCells : Obligations.PsPortReturnsEightCells :=
  fun s => ⟨Vector.length_toList, toList_getElem?_fin s.station.ps⟩

/-- Settles O54: the port is the list of the cells of RT. -/
theorem rtPortReturnsSixtyFourCells : Obligations.RtPortReturnsSixtyFourCells :=
  fun s => ⟨Vector.length_toList, toList_getElem?_fin s.station.rt⟩

end Sys2Proof.Proofs
end

section
/-! PROOFS. Decoding and encoding are inverse (R81 to R90), and the symbolic constructors of R92 are encodings; O1, O2,
O3 and O5. -/

namespace Sys2Proof.Proofs

open Sys2Proof.Machine Sys2Proof.Laws Sys2Proof.Safety

/-! ### The fields of an assembled group -/

section

variable (gt : BitVec 4) (ver : Bool) (k : Common) (low : BitVec 5) (c d : Block)

@[simp] theorem groupOf_c : (groupOf gt ver k low c d).c = c := rfl

@[simp] theorem groupOf_d : (groupOf gt ver k low c d).d = d := rfl

@[simp] theorem groupTypeBits_groupOf : groupTypeBits (groupOf gt ver k low c d).b = gt :=
  groupTypeBits_blockB gt ver k.tp k.pty low

@[simp] theorem versionBit_groupOf : versionBit (groupOf gt ver k low c d).b = ver :=
  versionBit_blockB gt ver k.tp k.pty low

@[simp] theorem lowBits_groupOf : lowBits (groupOf gt ver k low c d).b = low :=
  lowBits_blockB gt ver k.tp k.pty low

theorem decode_groupOf : decode (groupOf gt ver k low c d) = decodeRow gt ver (groupOf gt ver k low c d) := by
  rw [decode, groupTypeBits_groupOf, versionBit_groupOf]

end

/-- A group is its own fields put together. -/
theorem groupOf_fields (g : Group) :
    groupOf (groupTypeBits g.b) (versionBit g.b) (commonOf g) (lowBits g.b) g.c g.d = g := by
  simp only [groupOf, commonOf, blockB_fields]

/-- Two assembled groups are the same group only if their operands are the same. -/
theorem groupOf_inj {gt gt' : BitVec 4} {ver ver' : Bool} {k k' : Common} {low low' : BitVec 5} {c c' d d' : Block}
    (h : groupOf gt ver k low c d = groupOf gt' ver' k' low' c' d') :
    (gt = gt' ∧ ver = ver') ∧ k = k' ∧ low = low' ∧ c = c' ∧ d = d' := by
  have hgt := congrArg (groupTypeBits ·.b) h
  have hver := congrArg (versionBit ·.b) h
  have hk := congrArg commonOf h
  have hlow := congrArg (lowBits ·.b) h
  simp only [groupTypeBits_groupOf, versionBit_groupOf, commonOf_groupOf, lowBits_groupOf] at hgt hver hk hlow
  exact ⟨⟨hgt, hver⟩, hk, hlow, congrArg Group.c h, congrArg Group.d h⟩

/-! ### The two round trips -/

/-- Each arm of the dispatch map keeps every field of the group that it decodes: a route's arm splits B[4:0] and the
blocks into parts that go together again, and every other arm keeps them whole. -/
theorem encode_decodeRow (gt : BitVec 4) (ver : Bool) (g : Group) :
    encode (decodeRow gt ver g) = groupOf gt ver (commonOf g) (lowBits g.b) g.c g.d := by
  have hps : psLow (psHeader (lowBits g.b)) = lowBits g.b := psLow_psHeader _
  have hrt : rtLow (rtHeader (lowBits g.b)) = lowBits g.b := rtLow_rtHeader _
  obtain ⟨n, hn⟩ := gt
  interval_cases n <;> cases ver <;> simp only [decodeRow, encode, hps, hrt, blockOf_hiByte_loByte] <;> rfl

/-- Settles O2: the arm that decodes a group is that of its own type and version, and it keeps every other field. -/
theorem encodeOfDecodeIsIdentity : Obligations.EncodeOfDecodeIsIdentity :=
  fun g => (encode_decodeRow (groupTypeBits g.b) (versionBit g.b) g).trans (groupOf_fields g)

/-- Settles O1: an encoded instruction is a group of its own row, and the arm of that row reads back the operands that
the fields were assembled from. -/
theorem decodeOfEncodeIsIdentity : Obligations.DecodeOfEncodeIsIdentity := by
  intro i
  cases i with
  | g0a | g0b =>
    simp [encode, decode_groupOf, decodeRow, commonOf_groupOf, psHeader_psLow, hiByte_blockOf, loByte_blockOf]
  | g2a | g2b =>
    simp [encode, decode_groupOf, decodeRow, commonOf_groupOf, rtHeader_rtLow, hiByte_blockOf, loByte_blockOf]
  | _ => simp [encode, decode_groupOf, decodeRow, commonOf_groupOf]

/-! ### The symbolic constructors -/

theorem shiftOr_eq_blockOf (hi lo : Code) : hi.setWidth 16 <<< 8 ||| lo.setWidth 16 = blockOf hi lo := by
  apply BitVec.eq_of_getLsbD_eq
  intro i hi
  rw [getLsbD_blockOf]
  split
  · simp [*]
  · simp [*, BitVec.getLsbD_of_ge lo i (by omega)]

/-- Block B assembled by the shifts of R92 is block B assembled from its fields. -/
theorem shiftOr_eq_blockB (gt : BitVec 4) (ver tp : Bool) (pty low : BitVec 5) :
    gt.setWidth 16 <<< 12 ||| bitBlock ver <<< 11 ||| bitBlock tp <<< 10 ||| pty.setWidth 16 <<< 5 |||
      low.setWidth 16 = blockB gt ver tp pty low := by
  apply BitVec.eq_of_getLsbD_eq
  intro i hi
  rw [getLsbD_blockB]
  simp only [bitBlock, BitVec.getLsbD_or, BitVec.getLsbD_shiftLeft, BitVec.getLsbD_setWidth, BitVec.getLsbD_ofBool]
  interval_cases i <;> simp

/-- The same with the row's bits of block B as the constants that R92 writes. -/
theorem blockB_eq_row_or {gt : BitVec 4} {ver : Bool} {row : Block}
    (hrow : gt.setWidth 16 <<< 12 ||| bitBlock ver <<< 11 = row) (tp : Bool) (pty low : BitVec 5) :
    blockB gt ver tp pty low =
      row ||| (bitBlock tp <<< 10 ||| (pty.setWidth 16 <<< 5 ||| low.setWidth 16)) := by
  rw [← shiftOr_eq_blockB, hrow, BitVec.or_assoc, BitVec.or_assoc]

theorem psLow_eq_shiftOr (di : Bool) (addr : BitVec 2) :
    (psLow ⟨false, di, di, addr⟩).setWidth 16 = bitBlock di <<< 3 ||| (bitBlock di <<< 2 ||| addr.setWidth 16) := by
  revert di addr
  decide

theorem rtLow_eq_shiftOr (ab : Bool) (seg : BitVec 4) :
    (rtLow ⟨ab, seg⟩).setWidth 16 = bitBlock ab <<< 4 ||| seg.setWidth 16 := by
  revert ab seg
  decide

section

variable (pi : Block) (tp : Bool) (pty : BitVec 5) (qa qb qc qd : Level) (c1 c2 c3 c4 : Code)

theorem expand_g0a (di : Bool) (addr : BitVec 2) (af1 af2 : Code) :
    (Symbolic.g0a pi tp pty di addr af1 af2 c1 c2).expand qa qb qc qd =
      encode (.g0a ⟨pi, tp, pty, qa, qb, qc, qd⟩ ⟨false, di, di, addr⟩ af1 af2 c1 c2) := by
  have hrow : (0#4).setWidth 16 <<< 12 ||| bitBlock false <<< 11 = 0#16 := rfl
  simp [Symbolic.expand, encode, groupOf, blockB_eq_row_or hrow, psLow_eq_shiftOr, shiftOr_eq_blockOf,
    BitVec.or_assoc]

theorem expand_g0b (di : Bool) (addr : BitVec 2) :
    (Symbolic.g0b pi tp pty di addr c1 c2).expand qa qb qc qd =
      encode (.g0b ⟨pi, tp, pty, qa, qb, qc, qd⟩ ⟨false, di, di, addr⟩ pi c1 c2) := by
  have hrow : (0#4).setWidth 16 <<< 12 ||| bitBlock true <<< 11 = 0x0800#16 := rfl
  simp [Symbolic.expand, encode, groupOf, blockB_eq_row_or hrow, psLow_eq_shiftOr, shiftOr_eq_blockOf,
    BitVec.or_assoc, BitVec.or_comm _ 0x0800#16]

theorem expand_g2a (ab : Bool) (seg : BitVec 4) :
    (Symbolic.g2a pi tp pty ab seg c1 c2 c3 c4).expand qa qb qc qd =
      encode (.g2a ⟨pi, tp, pty, qa, qb, qc, qd⟩ ⟨ab, seg⟩ c1 c2 c3 c4) := by
  have hrow : (2#4).setWidth 16 <<< 12 ||| bitBlock false <<< 11 = 0x2000#16 := rfl
  simp [Symbolic.expand, encode, groupOf, blockB_eq_row_or hrow, rtLow_eq_shiftOr, shiftOr_eq_blockOf,
    BitVec.or_assoc]

theorem expand_g2b (ab : Bool) (seg : BitVec 4) :
    (Symbolic.g2b pi tp pty ab seg c1 c2).expand qa qb qc qd =
      encode (.g2b ⟨pi, tp, pty, qa, qb, qc, qd⟩ ⟨ab, seg⟩ pi c1 c2) := by
  have hrow : (2#4).setWidth 16 <<< 12 ||| bitBlock true <<< 11 = 0x2800#16 := rfl
  simp [Symbolic.expand, encode, groupOf, blockB_eq_row_or hrow, rtLow_eq_shiftOr, shiftOr_eq_blockOf,
    BitVec.or_assoc]

theorem expand_gx (g : BitVec 4) (v : Bool) :
    (Symbolic.gx pi g v tp pty).expand qa qb qc qd =
      groupOf g v ⟨pi, tp, pty, qa, qb, qc, qd⟩ 0#5 0#16 0#16 := by
  simp [Symbolic.expand, groupOf, ← shiftOr_eq_blockB]

end

theorem encode_noRouteForm (k : Common) (x : BitVec 5) (blkC blkD : Block) :
    ∀ f ∈ noRouteForms,
      encode (f.1 k x blkC blkD) = groupOf f.2 (verOf (f.1 k x blkC blkD)) k x blkC blkD :=
  List.map_inj_left.1 rfl

/-- The form that a group of a type other than 0 and 2 decodes to is applied to the group's own fields. -/
theorem decode_groupOf_eq_noRouteForm {gt : BitVec 4} (h0 : gt ≠ 0#4) (h2 : gt ≠ 2#4) (ver : Bool) (k : Common)
    (x : BitVec 5) (blkC blkD : Block) :
    ∃ f ∈ noRouteForms, f.2 = gt ∧ decode (groupOf gt ver k x blkC blkD) = f.1 k x blkC blkD := by
  have htype : gtOf (decode (groupOf gt ver k x blkC blkD)) = gt := by simp
  obtain ⟨f, hf, k', x', blkC', blkD', hform⟩ :=
    (eq_noRouteForm_iff (decode (groupOf gt ver k x blkC blkD))).2 (by simp [htype, h0, h2])
  have hfields := congrArg encode hform
  rw [encodeOfDecodeIsIdentity, encode_noRouteForm k' x' blkC' blkD' f hf] at hfields
  obtain ⟨⟨hgt, -⟩, rfl, rfl, rfl, rfl⟩ := groupOf_inj hfields
  exact ⟨f, hf, hgt.symm, hform⟩

/-- Settles O5: G0A, G0B, G2A and G2B expand to encoded instructions, and GX to a group assembled from its fields. -/
theorem symbolicConstructorsDecodeToTheirFields : Obligations.SymbolicConstructorsDecodeToTheirFields := by
  intro pi tp pty qa qb qc qd c1 c2 c3 c4
  refine ⟨fun di addr af1 af2 => ?_, fun di addr => ?_, fun ab seg => ?_, fun ab seg => ?_, fun g v hwf => ?_⟩
  · rw [expand_g0a, decodeOfEncodeIsIdentity]
  · rw [expand_g0b, decodeOfEncodeIsIdentity]
  · rw [expand_g2a, decodeOfEncodeIsIdentity]
  · rw [expand_g2b, decodeOfEncodeIsIdentity]
  · obtain ⟨h0, h2⟩ : g ≠ 0#4 ∧ g ≠ 2#4 := by simpa [Symbolic.wellFormed] using hwf
    obtain ⟨f, hf, hg, hform⟩ := decode_groupOf_eq_noRouteForm h0 h2 v ⟨pi, tp, pty, qa, qb, qc, qd⟩ 0#5 0#16 0#16
    rw [expand_gx]
    exact ⟨f, hf, hg, hform, by simp⟩

/-! ### Samples -/

/-- Settles O3: each sample is decoded as it stands. -/
theorem sampleGroupsDecode : Obligations.SampleGroupsDecode := by
  unfold Obligations.SampleGroupsDecode
  decide

end Sys2Proof.Proofs
end

section
/-! PROOFS. What a step and an executed instruction can do, said once (R5, R68, R250), and the state that RESET leaves
(R270); O6 to O11 from them. -/

namespace Sys2Proof.Proofs

open Sys2Proof.Machine Sys2Proof.Laws

/-! ### An executed instruction -/

/-- The station after a group: the accepted one, or the station as it was. -/
theorem exec_station {i : Instr} {s t : State} (h : exec i s = .next t) :
    (passes i = true ∧ t.station = acceptedStation (gtOf i) (instrCommon i) (routeOf i) s.station) ∨
      (passes i = false ∧ t.station = s.station) := by
  obtain ⟨hpass, hexec⟩ | ⟨hfail, hexec⟩ := exec_cases i s
  · cases hexec.symm.trans h
    exact .inl ⟨hpass, rfl⟩
  · cases hexec.symm.trans h
    exact .inr ⟨hfail, rfl⟩

/-- No group changes the host's side: the moves to come and the draws of INIT. -/
theorem exec_hostSide {i : Instr} {s t : State} (h : exec i s = .next t) :
    t.pending = s.pending ∧ t.initDraws = s.initDraws := by
  obtain ⟨-, hexec⟩ | ⟨-, hexec⟩ := exec_cases i s <;> cases hexec.symm.trans h <;> exact ⟨rfl, rfl⟩

/-! ### A step, by the host's next move -/

theorem step_of_idle {s : State} (h : s.pending = []) : step s = .next s := by
  simp [step, takeMove, h]

theorem step_of_rst {s : State} {rest : List HostMove} (h : s.pending = .rst :: rest) :
    step s = .next (resetStep { s with pending := rest }) := by
  simp [step, takeMove, h]

theorem step_of_grp {s : State} {g : Group} {rest : List HostMove} (h : s.pending = .grp g :: rest) :
    step s = exec (decode g) { s with pending := rest } := by
  simp [step, takeMove, h]

/-- Everything that a step can do to the station: RESET gives a fresh one, and any other step leaves it as it is or is
an accepted group. -/
theorem step_station {s t : State} (h : step s = .next t) :
    (s.pending.head? = some .rst ∧ t.station = freshStation (Config.init s.initDraws)) ∨
      (s.pending.head? ≠ some .rst ∧ (t.station = s.station ∨
        ∃ i, t.station = acceptedStation (gtOf i) (instrCommon i) (routeOf i) s.station)) := by
  match hmoves : s.pending with
  | [] =>
    cases (step_of_idle hmoves).symm.trans h
    exact .inr ⟨by simp, .inl rfl⟩
  | .rst :: rest =>
    cases (step_of_rst hmoves).symm.trans h
    exact .inl ⟨rfl, rfl⟩
  | .grp g :: rest =>
    refine .inr ⟨by simp, ?_⟩
    obtain ⟨-, haccept⟩ | ⟨-, hreject⟩ := exec_station ((step_of_grp hmoves).symm.trans h)
    · exact .inr ⟨_, haccept⟩
    · exact .inl hreject

/-- Settles O6: a pending group is taken away and its instruction executed. -/
theorem stepRunsTheDecodedGroup : Obligations.StepRunsTheDecodedGroup :=
  fun _ _ _ hmoves => step_of_grp hmoves

/-- Settles O8: an idle step answers the state it was given. -/
theorem idleStepChangesNothing : Obligations.IdleStepChangesNothing :=
  fun _ hmoves => step_of_idle hmoves

/-- Settles O10: idling and RESET answer a next state, and so does every instruction, accepted or rejected. -/
theorem everyStepAnswersANextState : Obligations.EveryStepAnswersANextState := by
  intro s
  match hmoves : s.pending with
  | [] => exact ⟨_, step_of_idle hmoves⟩
  | .rst :: rest => exact ⟨_, step_of_rst hmoves⟩
  | .grp g :: rest =>
    obtain ⟨t, hexec, -⟩ := exec_accept (decode g) { s with pending := rest }
    exact ⟨t, (step_of_grp hmoves).trans hexec⟩

/-- Settles O11: the placed group is the first pending move, and taking it away gives the state it was placed in. -/
theorem stepRunsThePlacedTableWord : Obligations.StepRunsThePlacedTableWord := by
  intro s nbits w i hdecode
  obtain rfl := Option.some.inj hdecode
  exact step_of_grp (presentNext_pending (groupOfTableWord nbits w) s)

/-! ### RESET -/

theorem freshStation_ps_getElem (v : InitValues) (j : Fin 8) : (freshStation v).ps[j] = blank :=
  Vector.getElem_replicate j.isLt

theorem freshStation_rt_getElem (v : InitValues) (j : Fin 64) : (freshStation v).rt[j] = blank :=
  Vector.getElem_replicate j.isLt

theorem afHas_freshStation (v : InitValues) (c : Nat) : afHas (freshStation v) c = false := by
  simp [afHas, freshStation]

theorem seenHas_freshStation (v : InitValues) (g : BitVec 4) : seenHas (freshStation v) g = false := by
  simp [seenHas, freshStation]

/-- Settles O7: RESET gives a fresh station for the next draw of INIT and keeps ACCEPT. -/
theorem stepPerformsReset : Obligations.StepPerformsReset := by
  intro s rest hmoves
  exact ⟨_, step_of_rst hmoves, rfl, rfl, rfl, rfl, rfl, rfl, rfl, rfl, rfl, rfl, freshStation_ps_getElem _,
    freshStation_rt_getElem _, rfl, afHas_freshStation _, seenHas_freshStation _⟩

/-- Settles O9: the reset state holds a fresh station, for draw 0 of INIT. -/
theorem resetStateValues : Obligations.ResetStateValues :=
  ⟨freshStation_ps_getElem _, freshStation_rt_getElem _, rfl, afHas_freshStation _, seenHas_freshStation _,
    ⟨0, Config.init 0, rfl, rfl, rfl, rfl, rfl, rfl, rfl, rfl⟩, rfl, rfl⟩

end Sys2Proof.Proofs
end

section
/-! PROOFS. What the verdict reads (R112, R117), the two outcomes of a group (R250), and the blocks each route needs;
O14, O17 and O18. -/

namespace Sys2Proof.Proofs

open Sys2Proof.Machine Sys2Proof.Laws

/-! ### Needed blocks -/

theorem readsPayload_iff (gt : BitVec 4) : readsPayload gt = true ↔ gt = 0#4 ∨ gt = 2#4 := by
  simp [readsPayload]

theorem needC_false_iff (gt : BitVec 4) (ver : Bool) :
    needC false gt ver = true ↔ (gt = 0#4 ∨ gt = 2#4) ∧ ver = false := by
  simp [needC, readsPayload_iff]

theorem needD_false_iff (gt : BitVec 4) : needD false gt = true ↔ gt = 0#4 ∨ gt = 2#4 := by
  simp [needD, readsPayload_iff]

/-- Settles O14: PASS asks for blocks A and B whatever is needed besides, and the alternative needs C and D always. -/
theorem neededBlocksByRoute : Obligations.NeededBlocksByRoute := by
  refine ⟨fun always gt ver k hpass => ?_, needC_false_iff, needD_false_iff, fun gt ver k => ?_, rfl⟩
  · obtain ⟨hqa, hqb, -, -⟩ := (gatePass_iff always gt ver k).1 hpass
    exact ⟨hqa, hqb⟩
  · simp [gatePass_iff, needC, needD]

/-! ### The verdict -/

/-- The verdict is a function of the row and the four levels. -/
theorem passes_congr {i j : Instr} (hrow : rowOf i = rowOf j)
    (hqa : (instrCommon i).qa = (instrCommon j).qa) (hqb : (instrCommon i).qb = (instrCommon j).qb)
    (hqc : (instrCommon i).qc = (instrCommon j).qc) (hqd : (instrCommon i).qd = (instrCommon j).qd) :
    passes i = passes j := by
  simp only [passes, gatePass, gtOf, verOf, hrow, hqa, hqb, hqc, hqd]

theorem accept_of_exec {i : Instr} {s t : State} (h : exec i s = .next t) : t.accept = some (passes i) := by
  obtain ⟨t', hexec, haccept⟩ := exec_accept i s
  cases hexec.symm.trans h
  exact haccept

/-- Settles O17: ACCEPT shows the verdict, in which no state occurs. -/
theorem acceptanceReadsNoState : Obligations.AcceptanceReadsNoState := by
  intro i j s s' t t' hrow hqa hqb hqc hqd hi hj
  rw [accept_of_exec hi, accept_of_exec hj, passes_congr hrow hqa hqb hqc hqd]

/-- Settles O18: the two outcomes of a group are those of DECODE, and an accepted group is marked in SEEN. -/
theorem exactlyTwoOutcomes : Obligations.ExactlyTwoOutcomes := by
  intro i s
  obtain ⟨hpass, hexec⟩ | ⟨hfail, hexec⟩ := exec_cases i s
  · exact ⟨_, hexec, .inl ⟨hpass, rfl, by simp [seenHas_acceptedStation]⟩⟩
  · exact ⟨_, hexec, .inr ⟨hfail, rfl, rfl⟩⟩

end Sys2Proof.Proofs
end

section
/-! PROOFS. The common fields of an accepted group (R131) and the 28 instructions without a route (R133); O19, O23 and
O24. -/

namespace Sys2Proof.Proofs

open Sys2Proof.Machine Sys2Proof.Laws Sys2Proof.Safety

/-! ### The common fields -/

@[simp] theorem routeOf_pty (i : Instr) (st : Station) : (routeOf i st).pty = st.pty := by
  cases i with
  | g0a k p af1 af2 c1 c2 => simp [routeOf]
  | g0b k p blkC c1 c2 => exact psRoute_pty p c1 c2 st
  | g2a k r c1 c2 c3 c4 => exact rtRouteA_pty r c1 c2 c3 c4 st
  | g2b k r blkC c1 c2 => exact rtRouteB_pty r c1 c2 st
  | _ => rfl

@[simp] theorem routeOf_tp (i : Instr) (st : Station) : (routeOf i st).tp = st.tp := by
  cases i with
  | g0a k p af1 af2 c1 c2 => simp [routeOf]
  | g0b k p blkC c1 c2 => exact psRoute_tp p c1 c2 st
  | g2a k r c1 c2 c3 c4 => exact rtRouteA_tp r c1 c2 c3 c4 st
  | g2b k r blkC c1 c2 => exact rtRouteB_tp r c1 c2 st
  | _ => rfl

/-- No route writes a common field, so an accepted group leaves its own (R131). -/
theorem acceptedStation_commonFields (gt : BitVec 4) (k : Common) (i : Instr) (st : Station) :
    (acceptedStation gt k (routeOf i) st).pi = k.pi ∧ (acceptedStation gt k (routeOf i) st).tp = k.tp ∧
      (acceptedStation gt k (routeOf i) st).pty = k.pty := by
  simp [acceptedStation]

/-- Settles O19: a decoded group has the common operands of its blocks, which an accepted group leaves. -/
theorem acceptedGroupWritesCommonFields : Obligations.AcceptedGroupWritesCommonFields := by
  intro g s hpass
  obtain ⟨hpi, htp, hpty⟩ :=
    acceptedStation_commonFields (gtOf (decode g)) (instrCommon (decode g)) (decode g) s.station
  exact ⟨_, exec_of_pass s hpass, hpi.trans (by simp [commonOf]), htp.trans (by simp [commonOf, tpBit]),
    hpty.trans (by simp [commonOf, ptyBits])⟩

/-! ### The instructions without a route -/

theorem instrCommon_noRouteForm (k : Common) (x : BitVec 5) (blkC blkD : Block) :
    ∀ f ∈ noRouteForms, instrCommon (f.1 k x blkC blkD) = k :=
  List.map_inj_left.1 rfl

/-- Settles O23: each form builds instructions of its type with the common operands it is given, so this is the next
state of every instruction without a route, read at them. -/
theorem noRouteInstructionsComplete : Obligations.NoRouteInstructionsComplete := by
  intro f hf k x blkC blkD s hqa hqb
  obtain ⟨h0, h2⟩ := noRouteForm_type f hf
  have hexec := exec_of_noRoute (i := f.1 k x blkC blkD) s
  rw [gtOf_noRouteForm k x blkC blkD f hf, instrCommon_noRouteForm k x blkC blkD f hf] at hexec
  exact hexec h0 h2 hqa hqb

/-- Settles O24: with no route an accepted group writes the common fields and its SEEN bit alone, and a rejected one
nothing. -/
theorem noRouteInstructionsFrame : Obligations.NoRouteInstructionsFrame := by
  intro f hf k x blkC blkD s t hexec
  obtain ⟨h0, h2⟩ := noRouteForm_type f hf
  have htype := gtOf_noRouteForm k x blkC blkD f hf
  obtain ⟨hpending, hdraws⟩ := exec_hostSide hexec
  obtain ⟨-, hst⟩ | ⟨-, hst⟩ := exec_station hexec
  · have hseen : ∀ g, g ≠ f.2 → seenHas t.station g = seenHas s.station g := fun g hg => by
      rw [hst, seenHas_acceptedStation, htype, decide_eq_false hg, Bool.or_false]
    rw [← htype] at h0 h2
    rw [routeOf_eq_id h0 h2, acceptedStation_id] at hst
    rw [hst] at hseen ⊢
    exact ⟨rfl, rfl, rfl, rfl, rfl, rfl, rfl, rfl, hseen, hpending, hdraws⟩
  · rw [hst]
    exact ⟨rfl, rfl, rfl, rfl, rfl, rfl, rfl, rfl, fun _ _ => rfl, hpending, hdraws⟩

end Sys2Proof.Proofs
end

section
/-! PROOFS. Group 0 (R150 to R157), both versions as one form: what an accepted group leaves in PS and the DI flags and
leaves alone besides; O25, O26, O28, O35 and O39 from it. -/

namespace Sys2Proof.Proofs

open Sys2Proof.Machine Sys2Proof.Laws Sys2Proof.Safety

/-! ### The new DI flag -/

theorem diValue_eq_diBitOf (p : PsHeader) : diValue Config.diBit p = diBitOf p := by
  cases hbit : Config.diBit <;> simp [diValue, diBitOf, hbit]

/-- The DI bit of the header, corrected by the polarity of the selected flag (R152). -/
theorem newDiFlag_eq (p : PsHeader) :
    newDiFlag p = (diBitOf p).xor (diInv Config.diInv1 Config.diInv2 p.addr) := by
  rw [newDiFlag, diFlag, diValue_eq_diBitOf]

/-- Everything that PS_ROUTE writes: the selected flag and its pair of cells. -/
theorem psRoute_eq (p : PsHeader) (c1 c2 : Code) (st : Station) :
    psRoute p c1 c2 st = { st with
      diSpty := if p.addr = 0#2 then newDiFlag p else st.diSpty
      diComp := if p.addr = 1#2 then newDiFlag p else st.diComp
      diAh := if p.addr = 2#2 then newDiFlag p else st.diAh
      diSt := if p.addr = 3#2 then newDiFlag p else st.diSt
      ps := writeCells st.ps (2 * p.addr.toNat) [charRom c1, charRom c2] } := by
  rw [psRoute, diUpdate_eq_writeDi]
  obtain h | h | h | h := addr_cases p.addr <;> rw [h] <;> rfl

/-! ### The two versions as one form -/

/-- The group 0 instructions, each with its common operands, its header and its two character codes. -/
inductive GroupZero : Instr → Common → PsHeader → Code → Code → Prop where
  | versionA (k : Common) (p : PsHeader) (af1 af2 c1 c2 : Code) : GroupZero (.g0a k p af1 af2 c1 c2) k p c1 c2
  | versionB (k : Common) (p : PsHeader) (blkC : Block) (c1 c2 : Code) : GroupZero (.g0b k p blkC c1 c2) k p c1 c2

namespace GroupZero

variable {i : Instr} {k : Common} {p : PsHeader} {c1 c2 : Code}

theorem gtOf_eq (h : GroupZero i k p c1 c2) : gtOf i = 0#4 := by
  cases h <;> rfl

theorem instrCommon_eq (h : GroupZero i k p c1 c2) : instrCommon i = k := by
  cases h <;> rfl

theorem acceptedStation_commonFields (h : GroupZero i k p c1 c2) (st : Station) :
    let st' := acceptedStation (gtOf i) (instrCommon i) (routeOf i) st
    st'.pi = k.pi ∧ st'.tp = k.tp ∧ st'.pty = k.pty := by
  rw [h.instrCommon_eq]
  exact Proofs.acceptedStation_commonFields (gtOf i) k i st

/-- The flag of the sub-address takes the corrected DI bit, and the other three keep their values (R152). -/
theorem acceptedStation_di (h : GroupZero i k p c1 c2) (st : Station) :
    let st' := acceptedStation (gtOf i) (instrCommon i) (routeOf i) st
    st'.diSpty = (if p.addr = 0#2 then !diBitOf p else st.diSpty) ∧
      st'.diComp = (if p.addr = 1#2 then (diBitOf p).xor Config.diInv1 else st.diComp) ∧
      st'.diAh = (if p.addr = 2#2 then (diBitOf p).xor Config.diInv2 else st.diAh) ∧
      st'.diSt = (if p.addr = 3#2 then diBitOf p else st.diSt) := by
  have hroute : let st' := acceptedStation (gtOf i) (instrCommon i) (routeOf i) st
      st'.diSpty = (if p.addr = 0#2 then newDiFlag p else st.diSpty) ∧
        st'.diComp = (if p.addr = 1#2 then newDiFlag p else st.diComp) ∧
        st'.diAh = (if p.addr = 2#2 then newDiFlag p else st.diAh) ∧
        st'.diSt = (if p.addr = 3#2 then newDiFlag p else st.diSt) := by
    cases h <;> simp [acceptedStation, routeOf]
  rw [newDiFlag_eq] at hroute
  obtain haddr | haddr | haddr | haddr := addr_cases p.addr <;> simpa [haddr, diInv] using hroute

/-- The two cells of the sub-address take the characters, and the other six keep their values (R153). -/
theorem acceptedStation_ps (h : GroupZero i k p c1 c2) (st : Station) (j : Fin 8) :
    (acceptedStation (gtOf i) (instrCommon i) (routeOf i) st).ps[j] =
      if j.val = 2 * p.addr.toNat then charRom c1
      else if j.val = 2 * p.addr.toNat + 1 then charRom c2
      else st.ps[j] := by
  rw [← psRoute_ps_getElem]
  cases h <;> simp [acceptedStation, routeOf]

/-- No group 0 touches the radio text. -/
theorem acceptedStation_radioText (h : GroupZero i k p c1 c2) (st : Station) :
    let st' := acceptedStation (gtOf i) (instrCommon i) (routeOf i) st
    st'.rt = st.rt ∧ st'.rtAb = st.rtAb := by
  cases h <;> simp [acceptedStation, routeOf]

theorem seenHas_acceptedStation_iff (h : GroupZero i k p c1 c2) (st : Station) (g : BitVec 4) :
    seenHas (acceptedStation (gtOf i) (instrCommon i) (routeOf i) st) g = true ↔ seenHas st g = true ∨ g = 0#4 := by
  rw [seenHas_acceptedStation, h.gtOf_eq, Bool.or_eq_true, decide_eq_true_eq]

end GroupZero

/-- Settles O25: all four blocks usable is what the gate asks of a G0A, and the accepted group writes its flag, its pair
of cells and its valid AF codes. -/
theorem groupZeroACompletes : Obligations.GroupZeroACompletes := by
  intro k p af1 af2 c1 c2 s hqa hqb hqc hqd
  have hpass : passes (.g0a k p af1 af2 c1 c2) = true :=
    (gatePass_iff ..).2 ⟨hqa, hqb, fun _ => hqc, fun _ => hqd⟩
  have h := GroupZero.versionA k p af1 af2 c1 c2
  obtain ⟨hpi, htp, hpty⟩ := h.acceptedStation_commonFields s.station
  obtain ⟨hspty, hcomp, hah, hst⟩ := h.acceptedStation_di s.station
  obtain ⟨hrt, hrtAb⟩ := h.acceptedStation_radioText s.station
  have haf := acceptedStation_g0a_af k p af1 af2 c1 c2 s.station
  exact ⟨_, exec_of_pass s hpass, rfl, hpi, htp, hpty, hspty, hcomp, hah, hst, h.acceptedStation_ps s.station,
    fun n => (Bool.eq_iff_iff.1 (afHas_congr haf n)).trans (afHas_afRoute_iff af1 af2 s.station n),
    h.seenHas_acceptedStation_iff s.station, hrt, hrtAb, rfl, rfl⟩

/-- Settles O26: the gate asks nothing of block C of a G0B, and the accepted group writes its flag and its pair of
cells. -/
theorem groupZeroBCompletes : Obligations.GroupZeroBCompletes := by
  intro k p blkC c1 c2 s hqa hqb hqd
  have hpass : passes (.g0b k p blkC c1 c2) = true :=
    (gatePass_iff ..).2 ⟨hqa, hqb, nofun, fun _ => hqd⟩
  have h := GroupZero.versionB k p blkC c1 c2
  obtain ⟨hpi, htp, hpty⟩ := h.acceptedStation_commonFields s.station
  obtain ⟨hspty, hcomp, hah, hst⟩ := h.acceptedStation_di s.station
  obtain ⟨hrt, hrtAb⟩ := h.acceptedStation_radioText s.station
  have hexec := exec_of_pass s hpass
  have haf := exec_af_of_ne_g0a (by simp [rowOf]) hexec
  exact ⟨_, hexec, rfl, hpi, htp, hpty, hspty, hcomp, hah, hst, h.acceptedStation_ps s.station, haf,
    h.seenHas_acceptedStation_iff s.station, hrt, hrtAb, rfl, rfl⟩

/-! ### The frame -/

/-- A code that a G0A does not carry is in AF after it exactly if it was before. -/
theorem afHas_of_exec_g0a {k : Common} {p : PsHeader} {af1 af2 c1 c2 : Code} {s t : State} {n : Nat}
    (h : exec (.g0a k p af1 af2 c1 c2) s = .next t) (h1 : n ≠ af1.toNat) (h2 : n ≠ af2.toNat) :
    afHas t.station n = afHas s.station n := by
  have haf := af_of_exec_g0a h
  split at haf
  · rw [afHas_congr haf, Bool.eq_iff_iff, afHas_afRoute_iff]
    simp [h1, h2]
  · exact afHas_congr haf n

/-- Settles O28: an accepted group of either version writes the elements of its sub-address and SEEN[0], and a G0A its
AF codes; a rejected one changes no station element. -/
theorem groupZeroFrame : Obligations.GroupZeroFrame := by
  intro k p af1 af2 blkC c1 c2 s t isA hexec
  have hafB : isA = false → t.station.af = s.station.af := by
    rintro rfl
    exact exec_af_of_ne_g0a (by simp [rowOf]) hexec
  have hafA : ∀ n, n ≠ af1.toNat → n ≠ af2.toNat → afHas t.station n = afHas s.station n := by
    intro n h1 h2
    cases isA with
    | false => exact afHas_congr (hafB rfl) n
    | true => exact afHas_of_exec_g0a hexec h1 h2
  have h : GroupZero (if isA then .g0a k p af1 af2 c1 c2 else .g0b k p blkC c1 c2) k p c1 c2 := by
    cases isA
    · exact .versionB k p blkC c1 c2
    · exact .versionA k p af1 af2 c1 c2
  obtain ⟨hpending, hdraws⟩ := exec_hostSide hexec
  obtain ⟨-, hst⟩ | ⟨-, hst⟩ := exec_station hexec
  · obtain ⟨hspty, hcomp, hah, hdiSt⟩ := h.acceptedStation_di s.station
    obtain ⟨hrt, hrtAb⟩ := h.acceptedStation_radioText s.station
    rw [← hst] at hspty hcomp hah hdiSt hrt hrtAb
    refine ⟨fun j hlow hhigh => ?_, fun h0 => hspty.trans (if_neg h0), fun h1 => hcomp.trans (if_neg h1),
      fun h2 => hah.trans (if_neg h2), fun h3 => hdiSt.trans (if_neg h3), fun g hg => ?_, hafA, hafB, hrt, hrtAb,
      hpending, hdraws⟩
    · rw [hst, h.acceptedStation_ps, if_neg hlow, if_neg hhigh]
    · rw [hst, seenHas_acceptedStation, h.gtOf_eq, decide_eq_false hg, Bool.or_false]
  · simp [hst, hpending, hdraws]

/-! ### The sub-address in block B -/

theorem psHeader_lowBits_addr (b : Block) : (psHeader (lowBits b)).addr = b.extractLsb' 0 2 := by
  apply BitVec.eq_of_getLsbD_eq
  intro i hi
  simp [psHeader, lowBits, hi]

theorem diBitOf_psHeader_lowBits (b : Block) :
    diBitOf (psHeader (lowBits b)) = if Config.diBit = .bit3 then b.getLsbD 3 else b.getLsbD 2 := by
  simp [diBitOf, psHeader, lowBits]

/-- A group of type 0 decodes to a group 0 form with the fields of its blocks. -/
theorem groupZero_decode {g : Group} (h : groupTypeBits g.b = 0#4) :
    GroupZero (decode g) (commonOf g) (psHeader (lowBits g.b)) (hiByte g.d) (loByte g.d) := by
  have hrow : rowOf (decode g) = (0#4, versionBit g.b) := by rw [rowOf_decode, h]
  rw [decode_eq_decodeRow hrow]
  cases versionBit g.b
  · exact .versionA _ _ _ _ _ _
  · exact .versionB _ _ _ _ _

/-- Settles O35: the header of a decoded group 0 has its sub-address and its DI bit from block B. -/
theorem subAddressSelectsTheDiFlag : Obligations.SubAddressSelectsTheDiFlag := by
  intro g s htype hpass
  have hdi := (groupZero_decode htype).acceptedStation_di s.station
  simp only [psHeader_lowBits_addr, diBitOf_psHeader_lowBits] at hdi
  obtain ⟨hspty, hcomp, hah, hst⟩ := hdi
  refine ⟨_, rfl, _, exec_of_pass s hpass, fun h => ?_, fun h => ?_, fun h => ?_, fun h => ?_⟩ <;>
    simp only [hspty, hcomp, hah, hst, h, BitVec.reduceEq, ↓reduceIte, and_self]

/-! ### The order of the AF codes -/

theorem afFeed_comm (c d : Code) (st : Station) : afFeed c (afFeed d st) = afFeed d (afFeed c st) := by
  unfold afFeed
  split <;> split <;> simp only [BitVec.or_assoc, BitVec.or_comm (BitVec.twoPow 203 (c.toNat - 1))]

/-- Settles O39: AF_ROUTE feeds one code after the other, and the two orders leave the same set. -/
theorem afCodeOrderCannotBeObserved : Obligations.AfCodeOrderCannotBeObserved := by
  intro k p af1 af2 c1 c2 s
  simp only [exec_g0a, afRoute, afFeed_comm af1 af2]

end Sys2Proof.Proofs
end

section
/-! PROOFS. Group 2 (R170 to R175): the whole effect of each version, the half of RT that version B cannot reach, and
the frame; O29, O30, O33 and O34. -/

namespace Sys2Proof.Proofs

open Sys2Proof.Machine Sys2Proof.Laws

/-! ### The cells of RT -/

/-- The first character falls on the first cell, which the others, one cell further on, do not reach. -/
theorem writeCells_cons_getElem {n : Nat} (c : DisplayChar) (cs : List DisplayChar) (buf : Vector DisplayChar n)
    (start : Nat) (j : Fin n) :
    (writeCells buf start (c :: cs))[j] = if j.val = start then c else (writeCells buf (start + 1) cs)[j] := by
  obtain ⟨j, hj⟩ := j
  simp only [Fin.getElem_fin]
  split
  case isTrue hfirst =>
    subst hfirst
    exact writeCells_of_inside (c :: cs) buf j 0 (Nat.zero_lt_succ _) hj
  case isFalse hother =>
    rw [writeCells_getElem, writeCells_getElem]
    by_cases h : start + 1 ≤ j ∧ j < start + 1 + cs.length
    · have h' : start ≤ j ∧ j < start + (c :: cs).length := by simp; omega
      have hindex : j - start = j - (start + 1) + 1 := by omega
      rw [dif_pos h, dif_pos h']
      simp only [hindex, List.getElem_cons_succ]
    · have h' : ¬ (start ≤ j ∧ j < start + (c :: cs).length) := by simp; omega
      rw [dif_neg h, dif_neg h']

namespace GroupTwo

variable {i : Instr} {k : Common} {r : RtHeader} {width : Nat}

/-- The text that the segment is written into: the old one, or blanks after a flip of the toggle (R172). -/
theorem checkedText_getElem (ab : Bool) (st : Station) (j : Fin 64) :
    (if ab = st.rtAb then st.rt else Vector.replicate 64 blank)[j] = if ab = st.rtAb then st.rt[j] else ' ' := by
  split
  · rfl
  · exact Vector.getElem_replicate j.isLt

theorem seenHas_acceptedStation_iff (h : GroupTwo i k r width) (st : Station) (g : BitVec 4) :
    seenHas (acceptedStation (gtOf i) (instrCommon i) (routeOf i) st) g = true ↔ seenHas st g = true ∨ g = 2#4 := by
  rw [seenHas_acceptedStation, h.gtOf_eq, Bool.or_eq_true, decide_eq_true_eq]

end GroupTwo

/-! ### The whole effect -/

/-- Settles O29: all four blocks usable is what the gate asks of a G2A, and the accepted group writes four cells into
the checked text. -/
theorem groupTwoACompletes : Obligations.GroupTwoACompletes := by
  intro k r c1 c2 c3 c4 s hqa hqb hqc hqd
  have hpass : passes (.g2a k r c1 c2 c3 c4) = true :=
    (gatePass_iff ..).2 ⟨hqa, hqb, fun _ => hqc, fun _ => hqd⟩
  have h := GroupTwo.versionA k r c1 c2 c3 c4
  obtain ⟨hpi, hpty, htp⟩ := h.acceptedStation_common s.station
  obtain ⟨hps, haf, hspty, hcomp, hah, hst⟩ := h.acceptedStation_frame s.station
  refine ⟨_, exec_of_pass s hpass, rfl, hpi, htp, hpty, h.acceptedStation_rtAb s.station, fun j => ?_,
    h.seenHas_acceptedStation_iff s.station, hps, haf, hspty, hcomp, hah, hst, rfl, rfl⟩
  rw [← GroupTwo.checkedText_getElem]
  simp only [h.acceptedStation_rt, charCodes, List.map, writeCells_cons_getElem]
  rfl

/-- Settles O30: the gate asks nothing of block C of a G2B, and the accepted group writes two cells into the checked
text. -/
theorem groupTwoBCompletes : Obligations.GroupTwoBCompletes := by
  intro k r blkC c1 c2 s hqa hqb hqd
  have hpass : passes (.g2b k r blkC c1 c2) = true :=
    (gatePass_iff ..).2 ⟨hqa, hqb, nofun, fun _ => hqd⟩
  have h := GroupTwo.versionB k r blkC c1 c2
  obtain ⟨hpi, hpty, htp⟩ := h.acceptedStation_common s.station
  obtain ⟨hps, haf, hspty, hcomp, hah, hst⟩ := h.acceptedStation_frame s.station
  refine ⟨_, exec_of_pass s hpass, rfl, hpi, htp, hpty, h.acceptedStation_rtAb s.station, fun j => ?_,
    h.seenHas_acceptedStation_iff s.station, hps, haf, hspty, hcomp, hah, hst, rfl, rfl⟩
  rw [← GroupTwo.checkedText_getElem]
  simp only [h.acceptedStation_rt, charCodes, List.map, writeCells_cons_getElem]
  rfl

/-! ### What stays -/

/-- Settles O33: the highest segment of a G2B ends below cell 32, so the upper half is outside every segment. -/
theorem versionBReachesOnlyTheLowerHalf : Obligations.VersionBReachesOnlyTheLowerHalf := by
  intro k r blkC c1 c2 s t hexec j hj
  have h := GroupTwo.versionB k r blkC c1 c2
  have hseg : r.seg.toNat < 16 := r.seg.isLt
  obtain ⟨-, hst⟩ | ⟨-, hst⟩ := exec_station hexec
  · rw [hst, h.acceptedStation_rt_of_outside s.station j (.inr (by omega))]
    by_cases hab : r.ab = s.station.rtAb
    · exact .inl (if_pos hab)
    · exact .inr ⟨if_neg hab, hab⟩
  · exact .inl (by rw [hst])

/-- Settles O34: an accepted group of either version writes RT and RT_AB besides what every accepted group writes, and
with the stored toggle only its segment of RT; a rejected one changes no station element. -/
theorem groupTwoFrame : Obligations.GroupTwoFrame := by
  intro k r blkC c1 c2 c3 c4 s t isA hexec
  have h : GroupTwo (if isA then .g2a k r c1 c2 c3 c4 else .g2b k r blkC c1 c2) k r (if isA then 4 else 2) := by
    cases isA
    · exact .versionB k r blkC c1 c2
    · exact .versionA k r c1 c2 c3 c4
  obtain ⟨hpending, hdraws⟩ := exec_hostSide hexec
  obtain ⟨-, hst⟩ | ⟨-, hst⟩ := exec_station hexec
  · obtain ⟨hps, haf, hspty, hcomp, hah, hdiSt⟩ := h.acceptedStation_frame s.station
    rw [hst]
    refine ⟨fun hsame => ⟨(h.acceptedStation_rtAb s.station).trans hsame, fun j hj => ?_⟩, hps, haf, hspty, hcomp,
      hah, hdiSt, fun g hg => h.seenHas_acceptedStation_of_ne s.station hg, hpending, hdraws⟩
    rw [h.acceptedStation_rt_of_outside s.station j hj, if_pos hsame]
  · simp [hst, hpending, hdraws]

end Sys2Proof.Proofs
end

section
/-! PROOFS. What an accepted group can make of each element (R178): the elements of group 0 and of group 2 stay under
every other type, and a cell keeps its value, takes a character of the group or is blanked by the toggle; O44, O46 and
O47. -/

namespace Sys2Proof.Proofs

open Sys2Proof.Machine Sys2Proof.Laws Sys2Proof.Safety

/-! ### The types with a route -/

theorem groupZero_of_gtOf {i : Instr} (h : gtOf i = 0#4) : ∃ k p c1 c2, GroupZero i k p c1 c2 := by
  cases i with
  | g0a k p af1 af2 c1 c2 => exact ⟨k, p, c1, c2, .versionA k p af1 af2 c1 c2⟩
  | g0b k p blkC c1 c2 => exact ⟨k, p, c1, c2, .versionB k p blkC c1 c2⟩
  | _ => simp [gtOf, rowOf] at h

theorem groupTwo_of_gtOf {i : Instr} (h : gtOf i = 2#4) : ∃ k r width, GroupTwo i k r width := by
  cases i with
  | g2a k r c1 c2 c3 c4 => exact ⟨k, r, 4, .versionA k r c1 c2 c3 c4⟩
  | g2b k r blkC c1 c2 => exact ⟨k, r, 2, .versionB k r blkC c1 c2⟩
  | _ => simp [gtOf, rowOf] at h

/-! ### The elements of group 0 and of group 2 -/

/-- No group but a group 0 writes PS, AF or a DI flag. -/
theorem acceptedStation_of_ne_groupZero {i : Instr} (h : gtOf i ≠ 0#4) (st : Station) :
    let st' := acceptedStation (gtOf i) (instrCommon i) (routeOf i) st
    st'.ps = st.ps ∧ st'.af = st.af ∧ st'.diSpty = st.diSpty ∧ st'.diComp = st.diComp ∧ st'.diAh = st.diAh ∧
      st'.diSt = st.diSt := by
  by_cases h2 : gtOf i = 2#4
  · obtain ⟨k, r, width, hform⟩ := groupTwo_of_gtOf h2
    exact hform.acceptedStation_frame st
  · rw [routeOf_eq_id h h2]
    exact ⟨rfl, rfl, rfl, rfl, rfl, rfl⟩

/-- No group but a group 2 writes RT or RT_AB. -/
theorem acceptedStation_of_ne_groupTwo {i : Instr} (h : gtOf i ≠ 2#4) (st : Station) :
    let st' := acceptedStation (gtOf i) (instrCommon i) (routeOf i) st
    st'.rt = st.rt ∧ st'.rtAb = st.rtAb := by
  by_cases h0 : gtOf i = 0#4
  · obtain ⟨k, p, c1, c2, hform⟩ := groupZero_of_gtOf h0
    exact hform.acceptedStation_radioText st
  · rw [routeOf_eq_id h0 h]
    exact ⟨rfl, rfl⟩

/-! ### The cells -/

theorem GroupZero.charCodes_eq {i : Instr} {k : Common} {p : PsHeader} {c1 c2 : Code}
    (h : GroupZero i k p c1 c2) : charCodes i = [c1, c2] := by
  cases h <;> rfl

theorem GroupTwo.toggleOf_eq {i : Instr} {k : Common} {r : RtHeader} {width : Nat}
    (h : GroupTwo i k r width) : toggleOf i = some r.ab := by
  cases h <;> rfl

/-- A PS cell keeps its value or takes a character of the group. -/
theorem acceptedStation_ps_old_or_new (i : Instr) (st : Station) (j : Fin 8) :
    (acceptedStation (gtOf i) (instrCommon i) (routeOf i) st).ps[j] = st.ps[j] ∨
      ∃ c ∈ charCodes i, (acceptedStation (gtOf i) (instrCommon i) (routeOf i) st).ps[j] = charRom c := by
  by_cases h0 : gtOf i = 0#4
  · obtain ⟨k, p, c1, c2, h⟩ := groupZero_of_gtOf h0
    rw [h.acceptedStation_ps, h.charCodes_eq]
    split_ifs
    · exact .inr ⟨c1, by simp, rfl⟩
    · exact .inr ⟨c2, by simp, rfl⟩
    · exact .inl rfl
  · obtain ⟨hps, -⟩ := acceptedStation_of_ne_groupZero h0 st
    exact .inl (by rw [hps])

/-- An RT cell keeps its value, takes a character of the group or is blanked by a changed toggle. -/
theorem acceptedStation_rt_old_new_or_cleared (i : Instr) (st : Station) (j : Fin 64) :
    (acceptedStation (gtOf i) (instrCommon i) (routeOf i) st).rt[j] = st.rt[j] ∨
      (∃ c ∈ charCodes i, (acceptedStation (gtOf i) (instrCommon i) (routeOf i) st).rt[j] = charRom c) ∨
      ((acceptedStation (gtOf i) (instrCommon i) (routeOf i) st).rt[j] = blank ∧
        ∃ ab, toggleOf i = some ab ∧ ab ≠ st.rtAb) := by
  by_cases h2 : gtOf i = 2#4
  · obtain ⟨k, r, width, h⟩ := groupTwo_of_gtOf h2
    rw [h.acceptedStation_rt, Fin.getElem_fin, Fin.getElem_fin]
    obtain hold | hnew := writeCells_old_or_new ((charCodes i).map charRom)
      (if r.ab = st.rtAb then st.rt else Vector.replicate 64 blank) (width * r.seg.toNat) j j.isLt
    · rw [hold]
      split
      case isTrue => exact .inl rfl
      case isFalse hflip => exact .inr (.inr ⟨Vector.getElem_replicate j.isLt, r.ab, h.toggleOf_eq, hflip⟩)
    · obtain ⟨c, hc, hcell⟩ := List.mem_map.1 hnew
      exact .inr (.inl ⟨c, hc, hcell.symm⟩)
  · obtain ⟨hrt, -⟩ := acceptedStation_of_ne_groupTwo h2 st
    exact .inl (by rw [hrt])

/-! ### The DI flags -/

/-- The DI bit of a group 0 is B[3] or B[2] of its encoding (R83). -/
theorem GroupZero.diBitOf_eq {i : Instr} {k : Common} {p : PsHeader} {c1 c2 : Code} (h : GroupZero i k p c1 c2) :
    diBitOf p = (encode i).b.getLsbD 3 ∨ diBitOf p = (encode i).b.getLsbD 2 := by
  have hheader : psHeader (lowBits (encode i).b) = p := by
    cases h <;> simp [encode, psHeader_psLow]
  rw [← hheader, diBitOf_psHeader_lowBits]
  exact ite_eq_or_eq ..

/-- A DI flag keeps its value or takes the DI bit of block B, corrected by its polarity (R152). -/
theorem acceptedStation_di_old_or_new (i : Instr) (st : Station) :
    let st' := acceptedStation (gtOf i) (instrCommon i) (routeOf i) st
    ∃ di, (di = (encode i).b.getLsbD 3 ∨ di = (encode i).b.getLsbD 2) ∧
      (st'.diSpty = st.diSpty ∨ st'.diSpty = !di) ∧
      (st'.diComp = st.diComp ∨ st'.diComp = di.xor Config.diInv1) ∧
      (st'.diAh = st.diAh ∨ st'.diAh = di.xor Config.diInv2) ∧
      (st'.diSt = st.diSt ∨ st'.diSt = di) := by
  by_cases h0 : gtOf i = 0#4
  · obtain ⟨k, p, c1, c2, h⟩ := groupZero_of_gtOf h0
    obtain ⟨hspty, hcomp, hah, hst⟩ := h.acceptedStation_di st
    refine ⟨diBitOf p, h.diBitOf_eq, ?_, ?_, ?_, ?_⟩
    · exact (ite_eq_or_eq ..).symm.imp hspty.trans hspty.trans
    · exact (ite_eq_or_eq ..).symm.imp hcomp.trans hcomp.trans
    · exact (ite_eq_or_eq ..).symm.imp hah.trans hah.trans
    · exact (ite_eq_or_eq ..).symm.imp hst.trans hst.trans
  · obtain ⟨-, -, hspty, hcomp, hah, hst⟩ := acceptedStation_of_ne_groupZero h0 st
    exact ⟨_, .inl rfl, .inl hspty, .inl hcomp, .inl hah, .inl hst⟩

/-- Settles O44: an accepted group leaves each element as it was or as the group gives it, and its sets grow; a rejected
one changes no station element. -/
theorem onlyTheToggleClearRemovesContent : Obligations.OnlyTheToggleClearRemovesContent := by
  intro i s t hexec
  obtain ⟨haf, hseen⟩ := afAndSeenOnlyGrow i s t hexec
  obtain ⟨-, hst⟩ | ⟨-, hst⟩ := exec_station hexec
  · obtain ⟨hpi, htp, hpty⟩ := acceptedStation_commonFields (gtOf i) (instrCommon i) i s.station
    rw [hst] at haf hseen ⊢
    exact ⟨.inr hpi, .inr hpty, .inr htp, acceptedStation_di_old_or_new i s.station,
      acceptedStation_ps_old_or_new i s.station, acceptedStation_rt_old_new_or_cleared i s.station, haf, hseen⟩
  · rw [hst]
    exact ⟨.inl rfl, .inl rfl, .inl rfl, ⟨_, .inl rfl, .inl rfl, .inl rfl, .inl rfl, .inl rfl⟩,
      fun _ => .inl rfl, fun _ => .inl rfl, fun _ hc => hc, fun _ hg => hg⟩

/-! ### Renderable cells -/

theorem cellsRenderable_freshStation (v : InitValues) : CellsRenderable (freshStation v) :=
  ⟨fun j => .inl (freshStation_ps_getElem v j), fun j => .inl (freshStation_rt_getElem v j)⟩

theorem cellsRenderable_acceptedStation (i : Instr) {st : Station} (h : CellsRenderable st) :
    CellsRenderable (acceptedStation (gtOf i) (instrCommon i) (routeOf i) st) := by
  obtain ⟨hps, hrt⟩ := h
  constructor
  · intro j
    obtain hold | ⟨c, -, hnew⟩ := acceptedStation_ps_old_or_new i st j
    · exact hold ▸ hps j
    · exact .inr ⟨c, hnew⟩
  · intro j
    obtain hold | ⟨c, -, hnew⟩ | ⟨hcleared, -⟩ := acceptedStation_rt_old_new_or_cleared i st j
    · exact hold ▸ hrt j
    · exact .inr ⟨c, hnew⟩
    · exact .inl hcleared

/-- Settles O46: RESET makes every cell BLANK, and an accepted group writes characters of CHAR_ROM and blanks alone. -/
theorem stepKeepsCellsRenderable : Obligations.StepKeepsCellsRenderable := by
  intro s t h hstep
  obtain ⟨-, hreset⟩ | ⟨-, hkept | ⟨i, haccept⟩⟩ := step_station hstep
  · exact hreset ▸ cellsRenderable_freshStation _
  · exact hkept ▸ h
  · exact haccept ▸ cellsRenderable_acceptedStation i h

/-- Settles O47: the reset state holds a fresh station. -/
theorem resetCellsRenderable : Obligations.ResetCellsRenderable :=
  cellsRenderable_freshStation (Config.init 0)

end Sys2Proof.Proofs
end

section
/-! PROOFS. What no group since the last reset has written still holds that reset's values (R35, R36), and SEEN tells
whether a group was accepted; O48, O49 and O50. -/

namespace Sys2Proof.Proofs

open Sys2Proof.Machine Sys2Proof.Laws Sys2Proof.Safety

theorem historyFits_freshStation (v : InitValues) : HistoryFits v (freshStation v) where
  common _ := ⟨rfl, rfl, rfl⟩
  groupZero _ := ⟨rfl, rfl, rfl, rfl, rfl, rfl⟩
  groupTwo _ := ⟨rfl, rfl⟩

/-! ### SEEN after an accepted group -/

theorem seen_acceptedStation_ne_zero (i : Instr) (st : Station) :
    (acceptedStation (gtOf i) (instrCommon i) (routeOf i) st).seen ≠ 0#16 := by
  intro hseen
  have hmark := seenHas_acceptedStation i st (gtOf i)
  simp [seenHas, hseen] at hmark

/-- A type that an accepted group leaves unseen is not the group's own and was unseen before. -/
theorem unseen_of_acceptedStation {i : Instr} {st : Station} {g : BitVec 4}
    (h : seenHas (acceptedStation (gtOf i) (instrCommon i) (routeOf i) st) g = false) :
    seenHas st g = false ∧ gtOf i ≠ g := by
  rw [seenHas_acceptedStation, Bool.or_eq_false_iff, decide_eq_false_iff_not] at h
  exact ⟨h.1, Ne.symm h.2⟩

/-! ### The history -/

/-- An accepted group of one type leaves the elements of the others alone and marks its own type, so what is still
unmarked is still as it was drawn. -/
theorem historyFits_acceptedStation {v : InitValues} {st : Station} (i : Instr) (h : HistoryFits v st) :
    HistoryFits v (acceptedStation (gtOf i) (instrCommon i) (routeOf i) st) where
  common hseen := absurd hseen (seen_acceptedStation_ne_zero i st)
  groupZero hseen := by
    obtain ⟨hunseen, hne⟩ := unseen_of_acceptedStation hseen
    obtain ⟨hps, haf, hspty, hcomp, hah, hst⟩ := acceptedStation_of_ne_groupZero hne st
    rw [hps, haf, hspty, hcomp, hah, hst]
    exact h.groupZero hunseen
  groupTwo hseen := by
    obtain ⟨hunseen, hne⟩ := unseen_of_acceptedStation hseen
    obtain ⟨hrt, hrtAb⟩ := acceptedStation_of_ne_groupTwo hne st
    rw [hrt, hrtAb]
    exact h.groupTwo hunseen

/-- Settles O48: a step other than RESET leaves the station or is an accepted group, and RESET gives a fresh one. -/
theorem stepKeepsHistory : Obligations.StepKeepsHistory := by
  intro s t v h hstep
  obtain ⟨hrst, hreset⟩ | ⟨hne, hkept | ⟨i, haccept⟩⟩ := step_station hstep
  · exact ⟨fun hne => absurd hrst hne, fun _ => ⟨s.initDraws, hreset ▸ historyFits_freshStation _⟩⟩
  · exact ⟨fun _ => hkept ▸ h, fun hrst => absurd hrst hne⟩
  · exact ⟨fun _ => haccept ▸ historyFits_acceptedStation i h, fun hrst => absurd hrst hne⟩

/-- Settles O49: the reset state holds a fresh station, for draw 0 of INIT. -/
theorem resetHistory : Obligations.ResetHistory :=
  ⟨0, historyFits_freshStation (Config.init 0)⟩

/-- Settles O50: an accepted group marks its type, a rejected one leaves SEEN, and RESET empties it. -/
theorem seenTellsWhetherAGroupWasAccepted : Obligations.SeenTellsWhetherAGroupWasAccepted := by
  constructor
  · intro i s t hexec
    obtain ⟨hpass, hst⟩ | ⟨hfail, hst⟩ := exec_station hexec
    · simp [hst, hpass, seen_acceptedStation_ne_zero]
    · simp [hst, hfail]
  · intro s t rest hmoves hstep
    cases (step_of_rst hmoves).symm.trans hstep
    rfl

end Sys2Proof.Proofs
end

section
/-! PROOFS. The stored toggle behind a blank radio text (R35): every route but those of group 2 carries another RT_AB
along unread, and a group 2 leaves the same whatever it was; O51. -/

namespace Sys2Proof.Proofs

open Sys2Proof.Machine Sys2Proof.Laws Sys2Proof.Safety

/-- A station with another stored toggle. -/
def withRtAb (ab : Bool) (st : Station) : Station := { st with rtAb := ab }

/-! ### The routes that do not read the toggle -/

theorem psRoute_withRtAb (p : PsHeader) (c1 c2 : Code) (ab : Bool) (st : Station) :
    psRoute p c1 c2 (withRtAb ab st) = withRtAb ab (psRoute p c1 c2 st) := by
  rw [psRoute_eq, psRoute_eq]
  rfl

theorem afRoute_withRtAb (af1 af2 : Code) (ab : Bool) (st : Station) :
    afRoute af1 af2 (withRtAb ab st) = withRtAb ab (afRoute af1 af2 st) := by
  have haf : (afRoute af1 af2 (withRtAb ab st)).af = (afRoute af1 af2 st).af := afRoute_af_congr af1 af2 rfl
  rw [afRoute_eq_withAf, afRoute_eq_withAf af1 af2 st, haf]
  rfl

theorem acceptedStation_withRtAb {i : Instr} (h : gtOf i ≠ 2#4) (ab : Bool) (st : Station) :
    acceptedStation (gtOf i) (instrCommon i) (routeOf i) (withRtAb ab st) =
      withRtAb ab (acceptedStation (gtOf i) (instrCommon i) (routeOf i) st) := by
  have hroute : ∀ st, routeOf i (withRtAb ab st) = withRtAb ab (routeOf i st) := by
    intro st
    cases i with
    | g0a k p af1 af2 c1 c2 => simp only [routeOf, psRoute_withRtAb, afRoute_withRtAb]
    | g0b k p blkC c1 c2 => exact psRoute_withRtAb p c1 c2 ab st
    | g2a => exact absurd rfl h
    | g2b => exact absurd rfl h
    | _ => rfl
  exact congrArg (markSeen (gtOf i)) (hroute (writeCommon (instrCommon i) st))

/-! ### Group 2 -/

/-- Over a blank text the A/B check stores the toggle and changes nothing else, flipped or not (R172). -/
theorem abCheck_of_blank {st : Station} (hrt : st.rt = Vector.replicate 64 blank) (ab : Bool) :
    abCheck ab st = withRtAb ab st := by
  unfold abCheck
  split
  case isTrue hsame => rw [hsame, withRtAb]
  case isFalse => rw [← hrt, withRtAb]

/-- Over a blank text a group 2 leaves the same whatever toggle was stored. -/
theorem GroupTwo.acceptedStation_withRtAb {i : Instr} {k : Common} {r : RtHeader} {width : Nat}
    (h : GroupTwo i k r width) (ab : Bool) {st : Station} (hrt : st.rt = Vector.replicate 64 blank) :
    acceptedStation (gtOf i) (instrCommon i) (routeOf i) (withRtAb ab st) =
      acceptedStation (gtOf i) (instrCommon i) (routeOf i) st := by
  have hcheck : ∀ ab', abCheck r.ab (writeCommon (instrCommon i) (withRtAb ab' st)) =
      withRtAb r.ab (writeCommon (instrCommon i) st) := fun ab' =>
    abCheck_of_blank (st := writeCommon (instrCommon i) (withRtAb ab' st)) hrt r.ab
  simp only [acceptedStation, h.routeOf_eq]
  rw [hcheck ab, ← hcheck st.rtAb]
  rfl

/-! ### States that differ in the stored toggle -/

theorem sameButBlankToggle_refl (s : State) : SameButBlankToggle s s := ⟨rfl, .inl rfl⟩

/-- Two such states are the same one, or the text is blank and the second has another toggle. -/
theorem sameButBlankToggle_cases {s t : State} (h : SameButBlankToggle s t) :
    t = s ∨ s.station.rt = Vector.replicate 64 blank ∧
      ∃ ab, t = { s with station := withRtAb ab s.station } := by
  obtain ⟨heq, hsame | hrt⟩ := h
  · exact .inl (heq.trans (by rw [hsame]))
  · exact .inr ⟨hrt, t.station.rtAb, heq⟩

/-- No port shows RT_AB (R33). -/
theorem portsAgree_of_sameButBlankToggle {s t : State} (h : SameButBlankToggle s t) : PortsAgree s t := by
  rw [h.1]
  exact ⟨rfl, rfl, rfl, rfl, rfl, rfl, rfl, rfl, rfl, rfl, rfl, rfl, rfl, rfl⟩

/-- No gate reads the toggle, so a group is accepted in both states or rejected in both, and it leaves them such states
again. -/
theorem exec_sameButBlankToggle (i : Instr) {s : State} (ab : Bool) (hrt : s.station.rt = Vector.replicate 64 blank) :
    ∃ s' t', exec i s = .next s' ∧ exec i { s with station := withRtAb ab s.station } = .next t' ∧
      SameButBlankToggle s' t' := by
  cases hpass : passes i with
  | false => exact ⟨_, _, exec_of_fail _ hpass, exec_of_fail _ hpass, rfl, .inr hrt⟩
  | true =>
    refine ⟨_, _, exec_of_pass _ hpass, exec_of_pass _ hpass, ?_⟩
    by_cases h2 : gtOf i = 2#4
    · obtain ⟨k, r, width, h⟩ := groupTwo_of_gtOf h2
      rw [h.acceptedStation_withRtAb ab hrt]
      exact sameButBlankToggle_refl _
    · obtain ⟨hkept, -⟩ := acceptedStation_of_ne_groupTwo h2 s.station
      rw [acceptedStation_withRtAb h2]
      exact ⟨rfl, .inr (hkept.trans hrt)⟩

theorem step_sameButBlankToggle {s t : State} (h : SameButBlankToggle s t) :
    ∃ s' t', step s = .next s' ∧ step t = .next t' ∧ SameButBlankToggle s' t' := by
  obtain rfl | ⟨hrt, ab, ht⟩ := sameButBlankToggle_cases h
  · obtain ⟨t', hstep⟩ := everyStepAnswersANextState t
    exact ⟨t', t', hstep, hstep, sameButBlankToggle_refl t'⟩
  · have hpending : t.pending = s.pending := by rw [ht]
    match hmoves : s.pending with
    | [] => exact ⟨s, t, step_of_idle hmoves, step_of_idle (hpending.trans hmoves), h⟩
    | .rst :: rest =>
      refine ⟨_, _, step_of_rst hmoves, step_of_rst (hpending.trans hmoves), ?_⟩
      subst ht
      exact sameButBlankToggle_refl _
    | .grp g :: rest =>
      rw [step_of_grp hmoves, step_of_grp (hpending.trans hmoves)]
      subst ht
      exact exec_sameButBlankToggle (decode g) (s := { s with pending := rest }) ab hrt

/-- Settles O51: such states show the same at every port, and a step leaves them such states again. -/
theorem blankTextHidesTheStoredToggle : Obligations.BlankTextHidesTheStoredToggle := by
  intro s t h
  obtain ⟨s', t', hs, ht, h'⟩ := step_sameButBlankToggle h
  exact ⟨portsAgree_of_sameButBlankToggle h, s', t', hs, ht, h', portsAgree_of_sameButBlankToggle h'⟩

end Sys2Proof.Proofs
end

section
/-! PROOFS. A group decoded twice (R65): every write of an accepted group, made again, changes nothing; O45. -/

namespace Sys2Proof.Proofs

open Sys2Proof.Machine Sys2Proof.Laws

/-! ### The routes, taken twice -/

/-- The same characters written again fall on the same cells. -/
theorem writeCells_idem {n : Nat} (buf : Vector DisplayChar n) (start : Nat) (cs : List DisplayChar) :
    writeCells (writeCells buf start cs) start cs = writeCells buf start cs := by
  apply Vector.ext
  intro j hj
  rw [writeCells_getElem]
  split
  case isTrue hinside => rw [writeCells_getElem, dif_pos hinside]
  case isFalse => rfl

theorem psRoute_idem (p : PsHeader) (c1 c2 : Code) (st : Station) :
    psRoute p c1 c2 (psRoute p c1 c2 st) = psRoute p c1 c2 st := by
  have hflag : ∀ (a : BitVec 2) (new old : Bool),
      (if p.addr = a then new else if p.addr = a then new else old) = if p.addr = a then new else old := by
    intro a new old
    split <;> rfl
  simp only [psRoute_eq, hflag, writeCells_idem]

theorem afFeed_idem (c : Code) (st : Station) : afFeed c (afFeed c st) = afFeed c st := by
  unfold afFeed
  split
  · simp [BitVec.or_assoc]
  · rfl

theorem afRoute_idem (af1 af2 : Code) (st : Station) :
    afRoute af1 af2 (afRoute af1 af2 st) = afRoute af1 af2 st := by
  simp only [afRoute, afFeed_comm af1 af2, afFeed_idem]

/-- The second A/B check finds the toggle that the first one stored, and the same segment is written again. -/
theorem GroupTwo.routeOf_idem {i : Instr} {k : Common} {r : RtHeader} {width : Nat} (h : GroupTwo i k r width)
    (st : Station) : routeOf i (routeOf i st) = routeOf i st := by
  simp only [h.routeOf_eq]
  rw [abCheck, if_pos (by simp)]
  simp only [rtWrite, writeCells_idem]

/-- PS_ROUTE carries AF along unread, and AF_ROUTE writes nothing else. -/
theorem psRoute_afRoute_comm (p : PsHeader) (c1 c2 af1 af2 : Code) (st : Station) :
    psRoute p c1 c2 (afRoute af1 af2 st) = afRoute af1 af2 (psRoute p c1 c2 st) := by
  have haf : (afRoute af1 af2 (psRoute p c1 c2 st)).af = (afRoute af1 af2 st).af :=
    afRoute_af_congr af1 af2 (psRoute_af p c1 c2 st)
  rw [afRoute_eq_withAf af1 af2 (psRoute p c1 c2 st), haf, afRoute_eq_withAf af1 af2 st, psRoute_eq, psRoute_eq]

theorem routeOf_idem (i : Instr) (st : Station) : routeOf i (routeOf i st) = routeOf i st := by
  cases i with
  | g0a k p af1 af2 c1 c2 => simp only [routeOf, psRoute_afRoute_comm, psRoute_idem, afRoute_idem]
  | g0b k p blkC c1 c2 => exact psRoute_idem p c1 c2 st
  | g2a k r c1 c2 c3 c4 => exact (GroupTwo.versionA k r c1 c2 c3 c4).routeOf_idem st
  | g2b k r blkC c1 c2 => exact (GroupTwo.versionB k r blkC c1 c2).routeOf_idem st
  | _ => rfl

/-! ### The elements that no route reads -/

/-- A station with other common fields and another SEEN. -/
def withCommonAndSeen (k : Common) (seen : BitVec 16) (st : Station) : Station :=
  { writeCommon k st with seen := seen }

theorem psRoute_withCommonAndSeen (p : PsHeader) (c1 c2 : Code) (k : Common) (seen : BitVec 16) (st : Station) :
    psRoute p c1 c2 (withCommonAndSeen k seen st) = withCommonAndSeen k seen (psRoute p c1 c2 st) := by
  rw [psRoute_eq, psRoute_eq]
  rfl

theorem afRoute_withCommonAndSeen (af1 af2 : Code) (k : Common) (seen : BitVec 16) (st : Station) :
    afRoute af1 af2 (withCommonAndSeen k seen st) = withCommonAndSeen k seen (afRoute af1 af2 st) := by
  have haf : (afRoute af1 af2 (withCommonAndSeen k seen st)).af = (afRoute af1 af2 st).af :=
    afRoute_af_congr af1 af2 rfl
  rw [afRoute_eq_withAf, afRoute_eq_withAf af1 af2 st, haf]
  rfl

theorem GroupTwo.routeOf_withCommonAndSeen {i : Instr} {k : Common} {r : RtHeader} {width : Nat}
    (h : GroupTwo i k r width) (k' : Common) (seen : BitVec 16) (st : Station) :
    routeOf i (withCommonAndSeen k' seen st) = withCommonAndSeen k' seen (routeOf i st) := by
  have hcheck : abCheck r.ab (withCommonAndSeen k' seen st) = withCommonAndSeen k' seen (abCheck r.ab st) := by
    have hab : (withCommonAndSeen k' seen st).rtAb = st.rtAb := rfl
    unfold abCheck
    rw [hab]
    split <;> rfl
  rw [h.routeOf_eq, h.routeOf_eq, hcheck]
  rfl

theorem routeOf_withCommonAndSeen (i : Instr) (k : Common) (seen : BitVec 16) (st : Station) :
    routeOf i (withCommonAndSeen k seen st) = withCommonAndSeen k seen (routeOf i st) := by
  cases i with
  | g0a _ p af1 af2 c1 c2 => simp only [routeOf, psRoute_withCommonAndSeen, afRoute_withCommonAndSeen]
  | g0b _ p blkC c1 c2 => exact psRoute_withCommonAndSeen p c1 c2 k seen st
  | g2a k' r c1 c2 c3 c4 => exact (GroupTwo.versionA k' r c1 c2 c3 c4).routeOf_withCommonAndSeen k seen st
  | g2b k' r blkC c1 c2 => exact (GroupTwo.versionB k' r blkC c1 c2).routeOf_withCommonAndSeen k seen st
  | _ => rfl

/-! ### The accepted group, taken twice -/

/-- An accepted group is its route on the old station, with its own common fields and its type in SEEN. -/
theorem acceptedStation_eq_withCommonAndSeen (gt : BitVec 4) (k : Common) (i : Instr) (st : Station) :
    acceptedStation gt k (routeOf i) st =
      withCommonAndSeen k (st.seen ||| BitVec.twoPow 16 gt.toNat) (routeOf i st) := by
  have hcommon : writeCommon k st = withCommonAndSeen k st.seen st := rfl
  rw [acceptedStation, hcommon, routeOf_withCommonAndSeen]
  rfl

theorem acceptedStation_idem (gt : BitVec 4) (k : Common) (i : Instr) (st : Station) :
    acceptedStation gt k (routeOf i) (acceptedStation gt k (routeOf i) st) =
      acceptedStation gt k (routeOf i) st := by
  simp only [acceptedStation_eq_withCommonAndSeen, routeOf_withCommonAndSeen, routeOf_idem]
  simp only [withCommonAndSeen, BitVec.or_assoc, BitVec.or_self]
  rfl

/-- Settles O45: an accepted group writes again what stands there, and a rejected one nothing. -/
theorem decodingTwiceIsDecodingOnce : Obligations.DecodingTwiceIsDecodingOnce := by
  intro i s t hexec
  obtain ⟨hpass, haccept⟩ | ⟨hfail, hreject⟩ := exec_cases i s
  · cases haccept.symm.trans hexec
    rw [exec_of_pass _ hpass, acceptedStation_idem]
  · cases hreject.symm.trans hexec
    exact exec_of_fail _ hfail

end Sys2Proof.Proofs
end

section
/-! PROOFS. The bits, blocks and levels that a route ignores (R90); O52. -/

namespace Sys2Proof.Proofs

open Sys2Proof.Machine Sys2Proof.Laws Sys2Proof.Safety

/-- PS_ROUTE reads the sub-address and the DI bit of its header, and no other bit (R83, R90). -/
theorem psRoute_congr {p p' : PsHeader} (haddr : p.addr = p'.addr) (hdi : diBitOf p = diBitOf p') (c1 c2 : Code) :
    psRoute p c1 c2 = psRoute p' c1 c2 := by
  funext st
  simp only [psRoute, diUpdate_eq_writeDi, newDiFlag_eq, haddr, hdi]

/-- The levels reach the gate alone: with another level of block C or D, a group that passes the same gate is the same
transaction. -/
theorem transact_withLevels {gt : BitVec 4} {ver : Bool} {k : Common} {q q' : Level}
    (hgate : gatePass gateCdAlways gt ver { k with qc := q, qd := q' } = gatePass gateCdAlways gt ver k)
    (route : Station → Station) (s : State) :
    transact gt ver { k with qc := q, qd := q' } route s = transact gt ver k route s := by
  unfold transact
  rw [hgate]
  rfl

/-- A block that the row does not need does not reach the gate (R112). -/
theorem gatePass_withLevelC {gt : BitVec 4} {ver : Bool} (hneed : needC gateCdAlways gt ver = false) (k : Common)
    (q : Level) : gatePass gateCdAlways gt ver { k with qc := q } = gatePass gateCdAlways gt ver k := by
  simp [gatePass, hneed]

theorem gatePass_withLevelsCD {gt : BitVec 4} {ver : Bool} (hread : readsPayload gt = false) (k : Common)
    (q q' : Level) : gatePass gateCdAlways gt ver { k with qc := q, qd := q' } = gatePass gateCdAlways gt ver k := by
  simp [gatePass, needC, needD, gateCdAlways, hread]

theorem verOf_noRouteForm (k k' : Common) (x x' : BitVec 5) (blkC blkC' blkD blkD' : Block) :
    ∀ f ∈ noRouteForms, verOf (f.1 k x blkC blkD) = verOf (f.1 k' x' blkC' blkD') :=
  List.map_inj_left.1 rfl

/-- Every instruction without a route is GX of its own type and version (R133). -/
theorem exec_noRouteForm (k : Common) (x : BitVec 5) (blkC blkD : Block) (s : State) :
    ∀ f ∈ noRouteForms, exec (f.1 k x blkC blkD) s = noRoute f.2 (verOf (f.1 k x blkC blkD)) k s :=
  List.map_inj_left.1 rfl

/-- Settles O52: the headers give the same route, the blocks are no operand of it, and the levels of unneeded blocks do
not reach the gate. -/
theorem ignoredBitsHaveNoEffect : Obligations.IgnoredBitsHaveNoEffect := by
  refine ⟨fun k p p' af1 af2 c1 c2 s haddr hdi => ?_, fun k p p' blkC blkC' c1 c2 q s haddr hdi => ?_,
    fun k r blkC blkC' c1 c2 q s => ?_, fun f hf k x x' blkC blkC' blkD blkD' q q' s => ?_⟩
  · rw [exec_g0a, exec_g0a, psRoute_congr haddr hdi]
  · rw [exec_g0b, exec_g0b, psRoute_congr haddr hdi]
    exact (transact_withLevels (gatePass_withLevelC rfl k q) _ s).symm
  · exact (transact_withLevels (gatePass_withLevelC rfl k q) _ s).symm
  · obtain ⟨h0, h2⟩ := noRouteForm_type f hf
    rw [exec_noRouteForm k x blkC blkD s f hf, exec_noRouteForm _ x' blkC' blkD' s f hf,
      verOf_noRouteForm k { k with qc := q, qd := q' } x x' blkC blkC' blkD blkD' f hf]
    exact (transact_withLevels (gatePass_withLevelsCD (readsPayload_eq_false h0 h2) k q q') id s).symm

end Sys2Proof.Proofs
end

section
/-! PROOFS. The scalar ports (R221 to R225, R80) and the pinned characters (R211, R214); O37 and O57. -/

namespace Sys2Proof.Proofs

open Sys2Proof.Machine

/-- Settles O37: the two pinned codes take the first two branches of CHAR_ROM. -/
theorem pinnedCharacters : Obligations.PinnedCharacters :=
  ⟨if_pos rfl, (if_neg (by decide)).trans (if_pos rfl), rfl⟩

/-- NAME is the table's entry for PI, and empty where there is none (R222). -/
theorem portName_eq_of_entry {s : State} {name : String} (h : Config.piNames s.station.pi = some name) :
    portName s = name := by
  rw [portName, h, Option.getD_some]

theorem portName_eq_of_noEntry {s : State} (h : Config.piNames s.station.pi = none) : portName s = "" := by
  rw [portName, h, Option.getD_none]

/-- Settles O57: each scalar port is its register, and the names and labels are the table's entries at it. -/
theorem scalarPortsReturnTheirRegisters : Obligations.ScalarPortsReturnTheirRegisters := by
  intro s
  refine ⟨rfl, rfl, rfl, rfl, rfl, rfl, rfl, ?_, rfl, rfl⟩
  split
  case h_1 name h => exact portName_eq_of_entry h
  case h_2 h => exact portName_eq_of_noEntry h

end Sys2Proof.Proofs
end
